-- ==== Sys2Proof/Word.lean ====
section
/-! DEFINITION. The word types of the block: 32-bit registers (R7, R10), bytes, the 45-bit transaction record (R80). -/

namespace Sys2Proof

/-- A register of the block, and every access to it: 32 bits, bit 0 the least significant (R7, R10). -/
abbrev Word := BitVec 32

/-- A byte of the command surface (R41) or of a record laid out in bytes. -/
abbrev Byte := BitVec 8

/-- A bus transaction record: `w` at bit 44, `boff` at bits 43:32, `data` at bits 31:0 (R80). -/
abbrev Record := BitVec 45

/-- The 13 bits [44:32] of a record, `w * 0x1000 + boff` (R80). -/
abbrev Header := BitVec 13

/-- A byte offset inside the 4096-byte window (R80). -/
abbrev ByteOffset := BitVec 12

/-- A word offset inside the window, 0 to 1023 (R51, R81). -/
abbrev WordOffset := BitVec 10

end Sys2Proof
end

