-- ==== Sys2Proof/Syntax.lean ====
section
/-! DEFINITION. The instructions: the 28 bus transactions of the decode table (R83), one constructor per row. -/

namespace Sys2Proof

/-- One bus transaction of the block (R9, R83). A read carries no data: "ignored by the decoder and by every rule when
`w = 0`" (R80). A catch-all row carries the offset it matched. -/
inductive Instr where
  /-- `RD.GPFSEL0` (R110). -/
  | rdGpfsel0
  /-- `WR.GPFSEL0` (R111). -/
  | wrGpfsel0 (data : Word)
  /-- `RD.GPFSEL1` (R112). -/
  | rdGpfsel1
  /-- `WR.GPFSEL1` (R113). -/
  | wrGpfsel1 (data : Word)
  /-- `RD.GPFSEL2` (R114). -/
  | rdGpfsel2
  /-- `WR.GPFSEL2` (R115). -/
  | wrGpfsel2 (data : Word)
  /-- `RD.GPFSEL3` (R116). -/
  | rdGpfsel3
  /-- `WR.GPFSEL3` (R117). -/
  | wrGpfsel3 (data : Word)
  /-- `RD.GPSET0` (R118). -/
  | rdGpset0
  /-- `WR.GPSET0` (R119). -/
  | wrGpset0 (data : Word)
  /-- `RD.GPCLR0` (R120). -/
  | rdGpclr0
  /-- `WR.GPCLR0` (R121). -/
  | wrGpclr0 (data : Word)
  /-- `RD.GPLEV0` (R122). -/
  | rdGplev0
  /-- `WR.GPLEV0` (R123). -/
  | wrGplev0 (data : Word)
  /-- `RD.GPFSEL4` (R124). -/
  | rdGpfsel4
  /-- `WR.GPFSEL4` (R125). -/
  | wrGpfsel4 (data : Word)
  /-- `RD.GPFSEL5` (R126). -/
  | rdGpfsel5
  /-- `WR.GPFSEL5` (R127). -/
  | wrGpfsel5 (data : Word)
  /-- `RD.GPSET1` (R128). -/
  | rdGpset1
  /-- `WR.GPSET1` (R129). -/
  | wrGpset1 (data : Word)
  /-- `RD.GPCLR1` (R130). -/
  | rdGpclr1
  /-- `WR.GPCLR1` (R131). -/
  | wrGpclr1 (data : Word)
  /-- `RD.GPLEV1` (R132). -/
  | rdGplev1
  /-- `WR.GPLEV1` (R133). -/
  | wrGplev1 (data : Word)
  /-- `RD.UNNAMED` (R134). -/
  | rdUnnamed (woff : WordOffset)
  /-- `WR.UNNAMED` (R135). -/
  | wrUnnamed (woff : WordOffset) (data : Word)
  /-- `RD.MISALIGNED` (R136). -/
  | rdMisaligned (boff : ByteOffset)
  /-- `WR.MISALIGNED` (R137). -/
  | wrMisaligned (boff : ByteOffset) (data : Word)
deriving DecidableEq, Repr

end Sys2Proof
end

