-- ==== Sys2Proof/WellFormed.lean ====
section
/-! DEFINITION. Which instructions the decode table can name: the operands of the catch-all rows (R83 rows 25 to 28). -/

namespace Sys2Proof

/-- The word offsets rows 1 to 24 of the decode table name (R83, R134). -/
def namedWoffs : List WordOffset := [0, 1, 2, 3, 4, 5, 7, 8, 10, 11, 13, 14]

/-- A byte offset whose lane `boff[1:0]` is not 0 (R81, R136). -/
def misalignedOffset (boff : ByteOffset) : Bool := boff.extractLsb' 0 2 != 0#2

/-- An unnamed word is none of the named ones (R134, R135) and a misaligned offset has a lane (R136, R137); every other
operand is free. -/
def Instr.wf : Instr → Bool
  | .rdUnnamed woff => !namedWoffs.contains woff
  | .wrUnnamed woff _ => !namedWoffs.contains woff
  | .rdMisaligned boff => misalignedOffset boff
  | .wrMisaligned boff _ => misalignedOffset boff
  | .rdGpfsel0 => true
  | .wrGpfsel0 _ => true
  | .rdGpfsel1 => true
  | .wrGpfsel1 _ => true
  | .rdGpfsel2 => true
  | .wrGpfsel2 _ => true
  | .rdGpfsel3 => true
  | .wrGpfsel3 _ => true
  | .rdGpset0 => true
  | .wrGpset0 _ => true
  | .rdGpclr0 => true
  | .wrGpclr0 _ => true
  | .rdGplev0 => true
  | .wrGplev0 _ => true
  | .rdGpfsel4 => true
  | .wrGpfsel4 _ => true
  | .rdGpfsel5 => true
  | .wrGpfsel5 _ => true
  | .rdGpset1 => true
  | .wrGpset1 _ => true
  | .rdGpclr1 => true
  | .wrGpclr1 _ => true
  | .rdGplev1 => true
  | .wrGplev1 _ => true

/-- An instruction some record decodes to. -/
abbrev Instr.WellFormed (i : Instr) : Prop := i.wf = true

end Sys2Proof
end

