-- ==== Sys2Proof/Decode.lean ====
section
/-! DEFINITION. The transaction record (R80, R81), the decode table (R83), the decoder, and the encoder written from the
same table. -/

namespace Sys2Proof

/-- The header `hdr`, bits [44:32] (R80). -/
def recordHeader (r : Record) : Header := r.extractLsb' 32 13

/-- `boff`, bits [43:32] (R80). -/
def recordBoff (r : Record) : ByteOffset := r.extractLsb' 32 12

/-- `woff = boff[11:2]` (R81). -/
def recordWoff (r : Record) : WordOffset := (recordBoff r).extractLsb' 2 10

/-- `data`, bits [31:0] (R80). -/
def recordData (r : Record) : Word := r.extractLsb' 0 32

/-- `RD32(woff)`: `w = 0`, `boff = 4 * woff`, `data = 0` (R81). -/
def rd32 (woff : WordOffset) : Record := 0#1 ++ woff ++ 0#2 ++ 0#32

/-- `WR32(woff, v)`: `w = 1`, `boff = 4 * woff`, `data = v` (R81). -/
def wr32 (woff : WordOffset) (v : Word) : Record := 1#1 ++ woff ++ 0#2 ++ v

/-- The decode table of R83 as data: mnemonic, match and mask on the header, in the order the rows are tried. -/
def decodeTableExact : List (String × Header × Header) :=
  [("RD.GPFSEL0", 0x0000, 0x1FFF),
   ("WR.GPFSEL0", 0x1000, 0x1FFF),
   ("RD.GPFSEL1", 0x0004, 0x1FFF),
   ("WR.GPFSEL1", 0x1004, 0x1FFF),
   ("RD.GPFSEL2", 0x0008, 0x1FFF),
   ("WR.GPFSEL2", 0x1008, 0x1FFF),
   ("RD.GPFSEL3", 0x000C, 0x1FFF),
   ("WR.GPFSEL3", 0x100C, 0x1FFF),
   ("RD.GPSET0", 0x001C, 0x1FFF),
   ("WR.GPSET0", 0x101C, 0x1FFF),
   ("RD.GPCLR0", 0x0028, 0x1FFF),
   ("WR.GPCLR0", 0x1028, 0x1FFF),
   ("RD.GPLEV0", 0x0034, 0x1FFF),
   ("WR.GPLEV0", 0x1034, 0x1FFF)]

/-- Rows 15 to 24 of R83: the registers the document names and puts out of scope. -/
def decodeTableOutOfScope : List (String × Header × Header) :=
  [("RD.GPFSEL4", 0x0010, 0x1FFF),
   ("WR.GPFSEL4", 0x1010, 0x1FFF),
   ("RD.GPFSEL5", 0x0014, 0x1FFF),
   ("WR.GPFSEL5", 0x1014, 0x1FFF),
   ("RD.GPSET1", 0x0020, 0x1FFF),
   ("WR.GPSET1", 0x1020, 0x1FFF),
   ("RD.GPCLR1", 0x002C, 0x1FFF),
   ("WR.GPCLR1", 0x102C, 0x1FFF),
   ("RD.GPLEV1", 0x0038, 0x1FFF),
   ("WR.GPLEV1", 0x1038, 0x1FFF)]

/-- Rows 25 to 28 of R83: the catch-all rows, which rely on the order. -/
def decodeTableCatchAll : List (String × Header × Header) :=
  [("RD.UNNAMED", 0x0000, 0x1003),
   ("WR.UNNAMED", 0x1000, 0x1003),
   ("RD.MISALIGNED", 0x0000, 0x1000),
   ("WR.MISALIGNED", 0x1000, 0x1000)]

/-- All 28 rows of R83, in ascending order. -/
def decodeTable : List (String × Header × Header) :=
  decodeTableExact ++ decodeTableOutOfScope ++ decodeTableCatchAll

/-- The name R83 gives a header: that of the first row with `(hdr & mask) = match`. -/
def tableMnemonic (h : Header) : Option String :=
  (decodeTable.find? fun row => h &&& row.2.2 == row.2.1).map (·.1)

/-- The decoder: the rows of R83 tried in order, so that it is total on records. -/
def decodeRecord (r : Record) : Instr :=
  let h := recordHeader r
  let d := recordData r
  if h = 0x0000#13 then .rdGpfsel0
  else if h = 0x1000#13 then .wrGpfsel0 d
  else if h = 0x0004#13 then .rdGpfsel1
  else if h = 0x1004#13 then .wrGpfsel1 d
  else if h = 0x0008#13 then .rdGpfsel2
  else if h = 0x1008#13 then .wrGpfsel2 d
  else if h = 0x000C#13 then .rdGpfsel3
  else if h = 0x100C#13 then .wrGpfsel3 d
  else if h = 0x001C#13 then .rdGpset0
  else if h = 0x101C#13 then .wrGpset0 d
  else if h = 0x0028#13 then .rdGpclr0
  else if h = 0x1028#13 then .wrGpclr0 d
  else if h = 0x0034#13 then .rdGplev0
  else if h = 0x1034#13 then .wrGplev0 d
  else if h = 0x0010#13 then .rdGpfsel4
  else if h = 0x1010#13 then .wrGpfsel4 d
  else if h = 0x0014#13 then .rdGpfsel5
  else if h = 0x1014#13 then .wrGpfsel5 d
  else if h = 0x0020#13 then .rdGpset1
  else if h = 0x1020#13 then .wrGpset1 d
  else if h = 0x002C#13 then .rdGpclr1
  else if h = 0x102C#13 then .wrGpclr1 d
  else if h = 0x0038#13 then .rdGplev1
  else if h = 0x1038#13 then .wrGplev1 d
  else if h &&& 0x1003#13 = 0x0000#13 then .rdUnnamed (recordWoff r)
  else if h &&& 0x1003#13 = 0x1000#13 then .wrUnnamed (recordWoff r) d
  else if h &&& 0x1000#13 = 0x0000#13 then .rdMisaligned (recordBoff r)
  else .wrMisaligned (recordBoff r) d

/-- The header the decode table gives an instruction (R83); a catch-all row's holds the offset it matched. -/
def instrHeader : Instr → Header
  | .rdGpfsel0 => 0x0000
  | .wrGpfsel0 _ => 0x1000
  | .rdGpfsel1 => 0x0004
  | .wrGpfsel1 _ => 0x1004
  | .rdGpfsel2 => 0x0008
  | .wrGpfsel2 _ => 0x1008
  | .rdGpfsel3 => 0x000C
  | .wrGpfsel3 _ => 0x100C
  | .rdGpset0 => 0x001C
  | .wrGpset0 _ => 0x101C
  | .rdGpclr0 => 0x0028
  | .wrGpclr0 _ => 0x1028
  | .rdGplev0 => 0x0034
  | .wrGplev0 _ => 0x1034
  | .rdGpfsel4 => 0x0010
  | .wrGpfsel4 _ => 0x1010
  | .rdGpfsel5 => 0x0014
  | .wrGpfsel5 _ => 0x1014
  | .rdGpset1 => 0x0020
  | .wrGpset1 _ => 0x1020
  | .rdGpclr1 => 0x002C
  | .wrGpclr1 _ => 0x102C
  | .rdGplev1 => 0x0038
  | .wrGplev1 _ => 0x1038
  | .rdUnnamed woff => 0#1 ++ woff ++ 0#2
  | .wrUnnamed woff _ => 1#1 ++ woff ++ 0#2
  | .rdMisaligned boff => 0#1 ++ boff
  | .wrMisaligned boff _ => 1#1 ++ boff

/-- The data of an instruction's record: the word written, 0 for a read (R81). -/
def instrData : Instr → Word
  | .rdGpfsel0 => 0
  | .wrGpfsel0 data => data
  | .rdGpfsel1 => 0
  | .wrGpfsel1 data => data
  | .rdGpfsel2 => 0
  | .wrGpfsel2 data => data
  | .rdGpfsel3 => 0
  | .wrGpfsel3 data => data
  | .rdGpset0 => 0
  | .wrGpset0 data => data
  | .rdGpclr0 => 0
  | .wrGpclr0 data => data
  | .rdGplev0 => 0
  | .wrGplev0 data => data
  | .rdGpfsel4 => 0
  | .wrGpfsel4 data => data
  | .rdGpfsel5 => 0
  | .wrGpfsel5 data => data
  | .rdGpset1 => 0
  | .wrGpset1 data => data
  | .rdGpclr1 => 0
  | .wrGpclr1 data => data
  | .rdGplev1 => 0
  | .wrGplev1 data => data
  | .rdUnnamed _ => 0
  | .wrUnnamed _ data => data
  | .rdMisaligned _ => 0
  | .wrMisaligned _ data => data

/-- The mnemonic of an instruction (R83, R92). -/
def instrMnemonic : Instr → String
  | .rdGpfsel0 => "RD.GPFSEL0"
  | .wrGpfsel0 _ => "WR.GPFSEL0"
  | .rdGpfsel1 => "RD.GPFSEL1"
  | .wrGpfsel1 _ => "WR.GPFSEL1"
  | .rdGpfsel2 => "RD.GPFSEL2"
  | .wrGpfsel2 _ => "WR.GPFSEL2"
  | .rdGpfsel3 => "RD.GPFSEL3"
  | .wrGpfsel3 _ => "WR.GPFSEL3"
  | .rdGpset0 => "RD.GPSET0"
  | .wrGpset0 _ => "WR.GPSET0"
  | .rdGpclr0 => "RD.GPCLR0"
  | .wrGpclr0 _ => "WR.GPCLR0"
  | .rdGplev0 => "RD.GPLEV0"
  | .wrGplev0 _ => "WR.GPLEV0"
  | .rdGpfsel4 => "RD.GPFSEL4"
  | .wrGpfsel4 _ => "WR.GPFSEL4"
  | .rdGpfsel5 => "RD.GPFSEL5"
  | .wrGpfsel5 _ => "WR.GPFSEL5"
  | .rdGpset1 => "RD.GPSET1"
  | .wrGpset1 _ => "WR.GPSET1"
  | .rdGpclr1 => "RD.GPCLR1"
  | .wrGpclr1 _ => "WR.GPCLR1"
  | .rdGplev1 => "RD.GPLEV1"
  | .wrGplev1 _ => "WR.GPLEV1"
  | .rdUnnamed _ => "RD.UNNAMED"
  | .wrUnnamed _ _ => "WR.UNNAMED"
  | .rdMisaligned _ => "RD.MISALIGNED"
  | .wrMisaligned _ _ => "WR.MISALIGNED"

/-- The encoder: `hdr * 2^32 + data` (R80). -/
def encodeRecord (i : Instr) : Record := instrHeader i ++ instrData i

/-- Why a string of bytes holds no record. -/
inductive DecodeError where
  /-- Fewer than the six bytes a 45-bit record takes up; raised by `recordOfBytes`; safe. -/
  | tooShort (bytes : Nat)
  /-- The three bits above bit 44 are not 0, so the number is no 45-bit record; raised by `recordOfBytes`; safe. -/
  | paddingNotZero
deriving DecidableEq, Repr

/-- A record laid out in six bytes, the least significant first: DESIGN CHOICE, the source has no byte form of a record
(R80, D18; the lanes follow R53); safe, nothing in the machine reads these bytes (log entry 6). -/
def bytesOfRecord (r : Record) : List Byte :=
  [r.extractLsb' 0 8, r.extractLsb' 8 8, r.extractLsb' 16 8, r.extractLsb' 24 8, r.extractLsb' 32 8,
   (r.extractLsb' 40 5).setWidth 8]

/-- The record the first six bytes hold, and the bytes after it (log entry 6). -/
def recordOfBytes : List Byte → Except DecodeError (Record × List Byte)
  | b0 :: b1 :: b2 :: b3 :: b4 :: b5 :: rest =>
    if b5.extractLsb' 5 3 = 0#3 then .ok (b5.extractLsb' 0 5 ++ b4 ++ b3 ++ b2 ++ b1 ++ b0, rest)
    else .error .paddingNotZero
  | short => .error (.tooShort short.length)

/-- The decoder on bytes: total, and it refuses by name. -/
def decode (bytes : List Byte) : Except DecodeError (Instr × List Byte) :=
  match recordOfBytes bytes with
  | .ok (r, rest) => .ok (decodeRecord r, rest)
  | .error e => .error e

/-- The bytes of an instruction's record. -/
def encode (i : Instr) : List Byte := bytesOfRecord (encodeRecord i)

/-- The `n` bytes of a number, the least significant first. -/
def bytesOfNat : Nat → Nat → List Byte
  | 0, _ => []
  | n + 1, w => BitVec.ofNat 8 w :: bytesOfNat n (w / 256)

/-- A record as `spec/opcode_table.json` numbers its bits, laid out in bytes: `nbits` bits of `w`, and zeros up to the
six bytes of the one record length (R82). -/
def tableWordBytes (nbits w : Nat) : List Byte := bytesOfNat (max 6 ((nbits + 7) / 8)) w

/-- What the decoder reads from a table word; `none` where it refuses. -/
def decodeTableWord (nbits w : Nat) : Option Instr :=
  match decode (tableWordBytes nbits w) with
  | .ok (i, _) => some i
  | .error _ => none

end Sys2Proof
end

