-- ==== Sys2Proof/Config.lean ====
section
/-! DEFINITION. What an implementation fixes (R7) and the free values the rules leave to the environment (R38, R150, R207). -/

namespace Sys2Proof

/-- The two parameters of R7 that no rule fixes and a transaction or operation reads. State carries them as plain data
and no step writes them, so a statement about every state holds for every value of them (log entry 3). -/
structure Params where
  /-- `GPIO_BASE`: the physical byte address of word 0 of the block (R7, R50; open, D1). -/
  gpioBase : Nat
  /-- `WO_READ`: the word a read of GPSET0 or GPCLR0 answers (R39; D5). -/
  woRead : Word
deriving DecidableEq, Repr

/-- The parameters `State.reset` starts with: the spec's default `WO_READ = 0` (R39), and a base address of 0, which is a
DESIGN CHOICE (R7 gives no value; log entry 3); unsafe as a fact of a board, no statement rests on either. -/
def Params.default : Params := { gpioBase := 0, woRead := 0x00000000#32 }

/-- `PAD`: the levels the circuit outside puts on the pins at the n-th read of GPLEV0, "a draw, under no law" (R38).
FREE VALUE: nothing constrains it, so a statement holds whatever the circuit does; safe (log entry 4). -/
opaque Config.padDraw : Nat → Word

/-- Whether the excluded mapping facility establishes the mapping at the n-th choice (R150: "not fixed by any rule").
FREE VALUE; safe (log entry 5). -/
opaque Config.mapSucceeds : Nat → Bool

/-- Whether the excluded registration facility publishes the endpoint at the n-th choice (R207: "may fail").
FREE VALUE; safe (log entry 5). -/
opaque Config.publishSucceeds : Nat → Bool

end Sys2Proof
end

