-- ==== Sys2Proof/Machine/State.lean ====
section
/-! DEFINITION. The machine's state as plain data (R24), the driver's operations and their results (R94, R230), the
inputs a step reads (R61), the refusals, and the state after reset (R43, R260). -/

namespace Sys2Proof.Machine

/-- `LIFE` (R40). -/
inductive Life where
  /-- Nothing is mapped yet. -/
  | unmapped
  /-- `map` succeeded: the one lifetime in which the window may be accessed (R66). -/
  | mapped
  /-- `unmap` ran: "no way back from `Destroyed` in one run" (R151). -/
  | destroyed
deriving DecidableEq, Repr

/-- `VIEW[p]`, what the driver last asked of pin p (R42, R182). -/
inductive PinView where
  | unconfigured
  | outputHigh
  | outputLow
deriving DecidableEq, Repr

/-- The mode a function-select code chooses (R31). -/
inductive PinMode where
  /-- `0b000`: not driven by the block. -/
  | input
  /-- `0b001`: driven with the latch bit. -/
  | output
  /-- Any other code: not driven by the latch; what drives the pin is outside the spec. -/
  | alternate (code : BitVec 3)
deriving DecidableEq, Repr

/-- The error names of R230, "the constructors of one closed type". -/
inductive OpError where
  /-- `map`, `start`: the block could not be mapped (R231). -/
  | mapFailure
  /-- `command_write`: the text is not two integers (R205); recovered locally, never returned (R232). -/
  | parseFailure
  /-- `command_write`: pin above 21 or value not 0 or 1 (R204); recovered locally, never returned (R232). -/
  | rangeViolation
  /-- `read_word`, `write_word`, `get_bit`: word offset at or above 1024 (R152, R153). -/
  | outOfRange
  /-- `read_level`, `drive_pin`: pin above 31 (R172, R173). -/
  | invalidPin
  /-- `drive_pin`: desired above 1 (R173). -/
  | invalidValue
deriving DecidableEq, Repr

/-- An operation a caller begins (R94; the Register Map, the Pin Controller, the command surface, the lifecycle). Pins,
offsets, bit indexes and values are unsigned integers (R170). -/
inductive Op where
  /-- `map(base_address)` (R150). -/
  | map (base : Nat)
  /-- `unmap(block)` (R151). -/
  | unmap
  /-- `read_word(block, offset)` (R152). -/
  | readWord (offset : Nat)
  /-- `write_word(block, offset, value)` (R153). -/
  | writeWord (offset : Nat) (value : Word)
  /-- `get_bit(block, word_offset, bit_index)` (R154). -/
  | getBit (wordOffset bitIndex : Nat)
  /-- `read_level(block, pin)` (R172). -/
  | readLevel (pin : Nat)
  /-- `drive_pin(block, pin, desired)` (R173). -/
  | drivePin (pin desired : Nat)
  /-- `status_read()` (R200). -/
  | statusRead
  /-- `command_write(input)` (R201). -/
  | commandWrite (input : List Byte)
  /-- `start()` (R207). -/
  | start
  /-- `stop()` (R208). -/
  | stop
deriving DecidableEq, Repr

/-- What an operation returns. -/
inductive Result where
  /-- The handle of a successful `map`: it covers `[base, base + 4096)` (R150). -/
  | handle (base : Nat)
  /-- An operation without a result value finished: `unmap`, `write_word`, `start`, `stop`. -/
  | done
  /-- `drive_pin` returned `Ok` (R173). -/
  | ok
  /-- The word of `read_word` (R152). -/
  | word (v : Word)
  /-- The bit of `get_bit` or `read_level` (R154, R172). -/
  | bit (b : Bool)
  /-- The status line of `status_read` (R200). -/
  | bytes (line : List Byte)
  /-- The count of `command_write` (R206). -/
  | count (n : Nat)
  /-- `start` aborted because publishing failed; the block was unmapped again (R207; log entry 18). -/
  | startAborted
  /-- `Err(<ErrorName>)` (R13, R230). -/
  | err (e : OpError)
deriving DecidableEq, Repr

/-- What the word of a one-read operation is turned into. -/
inductive ReadUse where
  /-- `read_word`: the word itself (R152). -/
  | word
  /-- `get_bit`, `read_level`: `(t >> k) & 1` (R154, R172). -/
  | bit (k : Fin 32)
  /-- `status_read`: the status line of the status pin's level (R200). -/
  | status
deriving DecidableEq, Repr

/-- Who asked for a `drive_pin`, and so what its end returns. -/
inductive DriveOrigin where
  /-- A direct call: `Ok` (R173). -/
  | direct
  /-- `command_write` of an input of `count` bytes: the count (R201, R206). -/
  | command (count : Nat)
deriving DecidableEq, Repr

/-- Which step of `drive_pin` comes next (R174, R175, R180), with the master-side temporary it has read. -/
inductive DriveStage where
  /-- `t <- RD32(i)`. -/
  | readFsel
  /-- `WR32(i, t')`. -/
  | writeFsel (t : Word)
  /-- `s <- RD32(7)` or `RD32(10)`. -/
  | readMask
  /-- `WR32(7, s | bit)` or `WR32(10, s | bit)`. -/
  | writeMask (s : Word)
  /-- The `VIEW` update and the return, after the last transaction (R173, R182, R280). -/
  | finish
deriving DecidableEq, Repr

/-- An operation in progress: a caller that has begun and has transactions left (R61, R94). -/
inductive Activity where
  /-- One `RD32(woff)` left. -/
  | reading (woff : WordOffset) (use : ReadUse)
  /-- One `WR32(woff, value)` left. -/
  | writing (woff : WordOffset) (value : Word)
  /-- `drive_pin` on an admitted pin and value, at a stage. -/
  | driving (pin : Fin 32) (desired : Bool) (origin : DriveOrigin) (stage : DriveStage)
deriving DecidableEq, Repr

/-- What a step serves (R61: the interleaving is an order of these). -/
inductive Input where
  /-- A master issues a raw transaction record (R80, R67). -/
  | bus (record : Record)
  /-- A master accesses a word at a physical byte address (R51). -/
  | access (write : Bool) (addr : Nat) (data : Word)
  /-- A caller begins an operation: its checks run, and it returns at once or has transactions left. -/
  | call (caller : Nat) (op : Op)
  /-- A caller performs the next transaction, or the return, of the operation it has in progress. -/
  | resume (caller : Nat)
deriving DecidableEq, Repr

/-- The state: the spec's record (R24), the parameters (R7), and the model's own fields, which hold what the masters do
and see (INVENTORY.md, State). -/
structure State where
  /-- `FSEL[0]` to `FSEL[3]` (R25). -/
  fsel : Vector Word 4
  /-- `OUT`, the output latch of pins 0 to 31 (R37). -/
  out : Word
  /-- `LIFE` (R40). -/
  life : Life
  /-- `CMD_BUF` (R41). -/
  cmdBuf : Vector Byte 256
  /-- `VIEW[p]` (R42). -/
  view : Vector PinView 32
  /-- `WO_READ` and `GPIO_BASE`: parameters, which no step writes (R7, R24; log entry 3). -/
  params : Params
  /-- MODEL's own: the word the last step's transaction answered (R80; log entry 8). -/
  reply : Option Word
  /-- MODEL's own: the caller and result of the operation the last step ended (R14; log entry 8). -/
  returned : Option (Nat × Result)
  /-- MODEL's own: the operations in progress, strictly rising by caller (R61; log entry 9). -/
  calls : List (Nat × Activity)
  /-- MODEL's own: what the masters do next, oldest first (R21, R61; log entry 7). -/
  inputs : List Input
  /-- MODEL's own: how many PAD words have been drawn (R38; log entry 4). -/
  padDraws : Nat
  /-- MODEL's own: how many choices of the host facilities have been drawn (R150, R207; log entry 5). -/
  hostDraws : Nat
deriving DecidableEq, Repr

/-- Why the machine stops with a fault: nothing. "No bus transaction … faults, aborts or reports an error" (R237), so the
type has no constructor and no step can fault; safe. -/
inductive Fault where
deriving DecidableEq, Repr

/-- The registers the document names and puts out of scope (R30, R36). -/
inductive OutOfScopeReg where
  | gpfsel4
  | gpfsel5
  | gpset1
  | gpclr1
  | gplev1
deriving DecidableEq, Repr

/-- Why the model gives a request no meaning (R14: "a model must not assign it one"). -/
inductive Refusal where
  /-- An instruction that has no meaning yet; raised by `exec`; safe. No arm raises it now. -/
  | notModelled (mnemonic : String)
  /-- A transaction or operation while `LIFE` is not `Mapped` (R40, R152, R153); raised by `whenMapped`; safe. -/
  | useOutsideLifetime
  /-- A register the document puts out of scope (R124 to R133); raised by their meanings; safe. -/
  | outOfScopeRegister (reg : OutOfScopeReg)
  /-- A word of the window the document does not name (R134, R135); raised by their meanings; safe. -/
  | unnamedWord (woff : WordOffset)
  /-- `boff[1:0] != 0` (R136, R137); raised by their meanings; safe. -/
  | misaligned (boff : ByteOffset)
  /-- `map` or `start` while `LIFE` is not `Unmapped` (R150); raised by `opMap` and `opStart`; safe. -/
  | mapTwice
  /-- `map` of an address that is not `GPIO_BASE` (R150: it "must be `GPIO_BASE`"; log entry 13); raised by `opMap`; safe. -/
  | mapWrongBase
  /-- `unmap` while `LIFE` is not `Mapped` (R151); raised by `unmapBlock`; safe. -/
  | unmapNotMapped
  /-- `unmap` while an operation is in flight (R151); raised by `unmapBlock`; safe. -/
  | unmapInFlight
  /-- `get_bit` with a bit index of 32 or more (R154); raised by `opGetBit`; safe. -/
  | shiftByWidth
  /-- A command integer of magnitude above 2^31 - 1 (R203); raised by `opCommandWrite`; safe. -/
  | integerTokenOverflow
  /-- A physical address outside the window (R58; log entry 14); raised by `serve`; safe. -/
  | outsideWindow
  /-- A caller begins an operation while it has one in progress, which a synchronous caller cannot (R60; log entry 10);
  raised by `beginOp`; safe. -/
  | callerBusy
deriving DecidableEq, Repr

/-- The state at the beginning of a run of the driver (R260) for given open parameters: `RESET_FSEL[n]` with bits 31:30
zero (R32, R43), `RESET_OUT`, `LIFE = Unmapped`, `VIEW[p] = Unconfigured`. `CMD_BUF` is unspecified there (R43); zeros are a
DESIGN CHOICE, unsafe (log entry 2). -/
def State.resetWith (params : Params) (resetFsel : Vector Word 4) (resetOut : Word) : State where
  fsel := resetFsel.map (· &&& 0x3FFFFFFF#32)
  out := resetOut
  life := .unmapped
  cmdBuf := Vector.replicate 256 0
  view := Vector.replicate 32 .unconfigured
  params := params
  reply := none
  returned := none
  calls := []
  inputs := []
  padDraws := 0
  hostDraws := 0

/-- The state after reset at the spec's defaults: all function-select words and the latch zero (R43, R260). The spec leaves
both open; DESIGN CHOICE, unsafe (log entry 1). -/
def State.reset : State := State.resetWith Params.default (Vector.replicate 4 0) 0

end Sys2Proof.Machine
end

