-- ==== Sys2Proof/Machine/Operands.lean ====
section
/-! DEFINITION. The pin-index decoder (R84 to R89), the fields of a function-select word (R25, R31), the bits of the set,
clear and level registers (R87). Pure: nothing here reads or writes state unless it takes the state as its argument. -/

namespace Sys2Proof.Machine

/-- `fsel_index(pin) = pin / 10`, the number of the pin's function-select register (R84). -/
def fselIndex (pin : Nat) : Nat := pin / 10

/-- `fsel_bitpos(pin) = pin % 10`, the number of the pin's field in its register (R85). -/
def fselBitpos (pin : Nat) : Nat := pin % 10

/-- `fsel_shift(pin) = 3 * fsel_bitpos(pin)`, the lowest bit of the pin's field (R85). -/
def fselShift (pin : Nat) : Nat := 3 * fselBitpos pin

/-- `fsel_clear_mask(pin) = ~(0b111 << fsel_shift(pin))` (R86). -/
def fselClearMask (pin : Nat) : Word := ~~~(0b111#32 <<< fselShift pin)

/-- `fsel_output_bit(pin) = 1 << fsel_shift(pin)`, the code `0b001` in place (R86). -/
def fselOutputBit (pin : Nat) : Word := 1#32 <<< fselShift pin

/-- `fsel_place(pin, c) = zext_32(c) << fsel_shift(pin)`, any code in place (R86). -/
def fselPlace (pin : Nat) (c : BitVec 3) : Word := c.setWidth 32 <<< fselShift pin

/-- `bit(pin) = 1 << pin` for an admitted pin (R87). -/
def pinBit (pin : Fin 32) : Word := 1#32 <<< pin.val

/-- `bank(pin)` for set, clear and level: bank 0 covers pins 0 to 31 (R87); no bank is given above. -/
def pinBank (pin : Nat) : Option Nat := if pin < 32 then some 0 else none

/-- `PIN_MAX_BANK0 = 31`: the pins the decoder as a whole is defined on (R7, R89, R176); above, it has no value. -/
def admittedPin (pin : Nat) : Option (Fin 32) := if h : pin < 32 then some ⟨pin, h⟩ else none

/-- Field number `k` of a function-select word: bits `[3k+2 : 3k]` (R25). -/
def fselFieldOf (w : Word) (k : Nat) : BitVec 3 := w.extractLsb' (3 * k) 3

/-- `fsel(p) = FSEL[p / 10][3*(p % 10) + 2 : 3*(p % 10)]`, for every pin the four words have a field for (R25, R29). -/
def fselField (s : State) (pin : Fin 40) : BitVec 3 :=
  fselFieldOf (s.fsel[fselIndex pin.val]'(by simp only [fselIndex]; omega)) (fselBitpos pin.val)

/-- The mode a code chooses (R31): `0b001` is output by the document, `0b000` is input from general knowledge (D9). -/
def modeOf (code : BitVec 3) : PinMode :=
  if code = 0b001#3 then .output else if code = 0b000#3 then .input else .alternate code

/-- The mode of pin p (R31). -/
def pinMode (s : State) (pin : Fin 40) : PinMode := modeOf (fselField s pin)

/-- A pin of bank 0 among the pins the four words have a field for (R29). -/
def fieldPin (pin : Fin 32) : Fin 40 := pin.castLE (by omega)

/-- Whether the block drives pin p of bank 0: `fsel(p) = 0b001` (R31, R38). -/
def drivesPin (s : State) (pin : Fin 32) : Bool := pinMode s (fieldPin pin) == .output

/-- `LEV`: bit p is `OUT[p]` where the block drives the pin, the outside circuit's level `PAD(p)` otherwise (R38, R122). -/
def levelWord (s : State) (pad : Word) : Word :=
  BitVec.ofFnLE fun p : Fin 32 => if drivesPin s p then s.out[p] else pad[p]

/-- The word `drive_pin` writes back to a function-select register: clear the pin's field, then set it to `0b001`, both
on the one word read (R174). -/
def configureOutput (pin : Fin 32) (t : Word) : Word :=
  (t &&& fselClearMask pin.val) ||| fselOutputBit pin.val

/-- Word offset of `GPFSEL<n>` (R155; D2). -/
def fselWoff (n : Nat) : WordOffset := BitVec.ofNat 10 n

/-- Word offset of GPSET0: 7, byte `0x1c` (R33, R155). -/
def gpset0Woff : WordOffset := 7#10

/-- Word offset of GPCLR0: 10, byte `0x28` (R34, R155). -/
def gpclr0Woff : WordOffset := 10#10

/-- Word offset of GPLEV0: 13, byte `0x34` (R35, R155; D3). -/
def gplev0Woff : WordOffset := 13#10

/-- The register step 3 or step 4 of `drive_pin` acts on (R175). -/
def driveWoff (desired : Bool) : WordOffset := if desired then gpset0Woff else gpclr0Woff

/-- `BLOCK_WORDS = 1024` (R7, R50). -/
def blockWords : Nat := 1024

/-- `BLOCK_BYTES = 4096` (R7, R50). -/
def blockBytes : Nat := 4096

/-- The physical byte address of a word: `GPIO_BASE + 4 * woff` (R51). -/
def physicalAddress (p : Params) (woff : WordOffset) : Nat := p.gpioBase + 4 * woff.toNat

/-- The record of an access at a physical byte address inside the window; `none` outside, where it "never reaches the
block" (R50, R51, R58). -/
def recordOfAccess (p : Params) (write : Bool) (addr : Nat) (data : Word) : Option Record :=
  if p.gpioBase ≤ addr ∧ addr < p.gpioBase + blockBytes then
    some (BitVec.ofBool write ++ BitVec.ofNat 12 (addr - p.gpioBase) ++ data)
  else none

end Sys2Proof.Machine
end

