-- ==== Sys2Proof/Machine/CommandText.lean ====
section
/-! DEFINITION. The texts of the command surface: the status line (R200), the command buffer (R202), the grammar (R203)
and the range check (R204). Pure functions on bytes. -/

namespace Sys2Proof.Machine

/-- `STATUS_PIN = 4` (R7, R200). -/
def statusPin : Fin 32 := 4

/-- The 20 bytes before the digit: `Hello, World!`, one line feed, `Pin4: ` (R200). -/
def statusText : List Byte :=
  [0x48, 0x65, 0x6C, 0x6C, 0x6F, 0x2C, 0x20, 0x57, 0x6F, 0x72, 0x6C, 0x64, 0x21, 0x0A] ++
  [0x50, 0x69, 0x6E, 0x34, 0x3A, 0x20]

/-- The status line for the level of the status pin: 21 bytes (R200). -/
def statusLine (level : Bool) : List Byte := statusText ++ [if level then 0x31 else 0x30]

/-- `CMD_BUF <- 256 zero bytes`, then the first `min(n, 256)` bytes of the input (R201, R202). -/
def fillBuffer (input : List Byte) : Vector Byte 256 :=
  ⟨(input.take 256 ++ List.replicate (256 - (input.take 256).length) 0).toArray, by simp⟩

/-- What the parser reads: "up to the first zero byte or the 256th byte" (R202). -/
def bufferText (b : Vector Byte 256) : List Byte := b.toList.takeWhile (· != 0)

/-- `ws`: space, tab, line feed, vertical tab, form feed, carriage return (R203). -/
def isWs (b : Byte) : Bool := b == 0x20 || (0x09 ≤ b && b ≤ 0x0D)

/-- `digit ::= "0" .. "9"` (R203). -/
def isDigit (b : Byte) : Bool := 0x30 ≤ b && b ≤ 0x39

/-- The number a run of decimal digits spells. -/
def decimalValue (digits : List Byte) : Nat := digits.foldl (fun n d => 10 * n + (d.toNat - 0x30)) 0

/-- What one integer conversion gives. -/
inductive Token where
  /-- No digit where one is needed. -/
  | missing
  /-- Magnitude above 2^31 - 1: no meaning (R203). -/
  | overflow
  /-- The integer, and the bytes after it. -/
  | int (v : Int) (rest : List Byte)
deriving DecidableEq, Repr

/-- `sign?`: whether the integer is negative, and the bytes after the sign (R203). -/
def scanSign : List Byte → Bool × List Byte
  | [] => (false, [])
  | b :: rest => if b == 0x2D then (true, rest) else if b == 0x2B then (false, rest) else (false, b :: rest)

/-- `ws* integer`, one conversion (R203). -/
def scanInt (text : List Byte) : Token :=
  let (neg, body) := scanSign (text.dropWhile isWs)
  let digits := body.takeWhile isDigit
  if digits.isEmpty then .missing
  else if decimalValue digits > 2 ^ 31 - 1 then .overflow
  else .int (if neg then -(decimalValue digits : Int) else decimalValue digits) (body.dropWhile isDigit)

/-- What the whole text gives. -/
inductive Parsed where
  /-- Fewer than two integers (R203, R205). -/
  | failure
  /-- An integer token too large (R203). -/
  | overflow
  /-- Both integers. -/
  | pair (pin value : Int)
deriving DecidableEq, Repr

/-- The second half of the text: "," then `ws* integer`, the rest ignored (R203). -/
def parseValue (pin : Int) : List Byte → Parsed
  | [] => .failure
  | b :: rest =>
    if b == 0x2C then
      match scanInt rest with
      | .missing => .failure
      | .overflow => .overflow
      | .int value _ => .pair pin value
    else .failure

/-- `text ::= ws* integer "," ws* integer rest` (R203). -/
def parseCommand (text : List Byte) : Parsed :=
  match scanInt text with
  | .missing => .failure
  | .overflow => .overflow
  | .int pin rest => parseValue pin rest

/-- What `command_write` does with a text. -/
inductive Verdict where
  /-- `refuse(IntegerTokenOverflow)` (R203). -/
  | refuse
  /-- An error recovered locally: no state change, success reported (R205, R204, R232). -/
  | recovered (e : OpError)
  /-- `drive_pin(block, pin, value)`, both in range (R204). -/
  | drive (pin desired : Nat)
deriving DecidableEq, Repr

/-- `PIN_MAX_CMD = 21` (R7, R204). -/
def pinMaxCmd : Int := 21

/-- Parse, then the range check: `0 ≤ pin ≤ 21` and value 0 or 1; a negative integer is out of range (R204). -/
def commandVerdict (text : List Byte) : Verdict :=
  match parseCommand text with
  | .failure => .recovered .parseFailure
  | .overflow => .refuse
  | .pair pin value =>
    if 0 ≤ pin ∧ pin ≤ pinMaxCmd ∧ 0 ≤ value ∧ value ≤ 1 then .drive pin.toNat value.toNat
    else .recovered .rangeViolation

end Sys2Proof.Machine
end

