-- ==== Sys2Proof/Machine/Ops.lean ====
section
/-! DEFINITION. The named operations over the state: one update per field, the register accesses every bus transaction is
made of (R110 to R137), and the ends of an operation. There is no trap entry and no trap return (R240, R241): an error is
a returned value, and `errorTo` is the one operation that returns it. -/

namespace Sys2Proof.Machine

/-- The outcome of a step of this machine. -/
abbrev Outcome := Host.Outcome State Fault Refusal

/-- Go on from a next state; a fault or a refusal ends the run (R14). -/
def andThen (o : Outcome) (k : State → Outcome) : Outcome :=
  match o with
  | .next s => k s
  | .fault f => .fault f
  | .refused r => .refused r

/-! Updates of one field each. -/

/-- A read transaction answers one word (R80). -/
def State.answer (s : State) (v : Word) : State := { s with reply := some v }

/-- A write transaction answers nothing (R80). -/
def State.answerNothing (s : State) : State := { s with reply := none }

/-- Replace a function-select word; bits 31:30 of the data are dropped (R32, R111). -/
def State.setFsel (s : State) (n : Fin 4) (data : Word) : State :=
  { s with fsel := s.fsel.set n (data &&& 0x3FFFFFFF#32) }

/-- Replace the output latch (R37). -/
def State.setOut (s : State) (v : Word) : State := { s with out := v }

/-- Change the lifecycle state (R40). -/
def State.setLife (s : State) (l : Life) : State := { s with life := l }

/-- Replace the command buffer (R202). -/
def State.setCmdBuf (s : State) (b : Vector Byte 256) : State := { s with cmdBuf := b }

/-- Record what the driver last asked of a pin (R182). -/
def State.setView (s : State) (pin : Fin 32) (v : PinView) : State := { s with view := s.view.set pin v }

/-- Replace the operations in progress (R61). -/
def State.setCalls (s : State) (l : List (Nat × Activity)) : State := { s with calls := l }

/-- Note that an operation returned (R14). -/
def State.setReturned (s : State) (r : Option (Nat × Result)) : State := { s with returned := r }

/-- The next read of the level takes a fresh draw (R38). -/
def State.countPadDraw (s : State) : State := { s with padDraws := s.padDraws + 1 }

/-- The next choice of a host facility is a fresh one (R150, R207). -/
def State.countHostDraw (s : State) : State := { s with hostDraws := s.hostDraws + 1 }

/-- Take the oldest input: the outputs of the step before are gone (log entry 8). -/
def State.accept (s : State) (rest : List Input) : State :=
  { s with inputs := rest, reply := none, returned := none }

/-- The word the last transaction answered; a read always answers one (`busRead_answers`). -/
def State.replyWord (s : State) : Word := s.reply.getD 0

/-! Register accesses. Each needs `LIFE = Mapped` (R40) and is one atomic step (R55). -/

/-- Refuse outside the lifetime of the mapping (R40, R66). -/
def whenMapped (s : State) (o : Outcome) : Outcome :=
  if s.life = .mapped then o else .refused .useOutsideLifetime

/-- Read a function-select register (R110, R112, R114, R116). -/
def readFsel (n : Fin 4) (s : State) : Outcome := whenMapped s (.next (s.answer s.fsel[n]))

/-- Write a function-select register: the whole word at once (R111, R113, R115, R117). -/
def writeFsel (n : Fin 4) (data : Word) (s : State) : Outcome :=
  whenMapped s (.next (s.setFsel n data).answerNothing)

/-- Read a write-only register: `WO_READ`, never `OUT` (R39, R118, R120). -/
def readWriteOnly (s : State) : Outcome := whenMapped s (.next (s.answer s.params.woRead))

/-- Write the set register: a 1 sets the pin's latch bit, a 0 is a no-op (R119). -/
def setLatch (data : Word) (s : State) : Outcome :=
  whenMapped s (.next (s.setOut (s.out ||| data)).answerNothing)

/-- Write the clear register: a 1 clears the pin's latch bit, a 0 is a no-op (R121). -/
def clearLatch (data : Word) (s : State) : Outcome :=
  whenMapped s (.next (s.setOut (s.out &&& ~~~data)).answerNothing)

/-- Read the level register with a fresh draw of the pads (R122). -/
def readLevels (s : State) : Outcome :=
  whenMapped s (.next (s.countPadDraw.answer (levelWord s (Config.padDraw s.padDraws))))

/-- A write that is dropped (R123). -/
def dropWrite (s : State) : Outcome := whenMapped s (.next s.answerNothing)

/-- A transaction the spec gives no meaning (R124 to R137); outside the lifetime that is the reason (R40). -/
def noMeaning (r : Refusal) (s : State) : Outcome := whenMapped s (.refused r)

/-! Operations in progress, by caller. -/

/-- What a caller has in progress. -/
def findCall (c : Nat) : List (Nat × Activity) → Option Activity
  | [] => none
  | (k, a) :: rest => if k = c then some a else findCall c rest

/-- Put what a caller has in progress, keeping the list strictly rising. -/
def putCall (c : Nat) (a : Activity) : List (Nat × Activity) → List (Nat × Activity)
  | [] => [(c, a)]
  | (k, b) :: rest =>
    if c < k then (c, a) :: (k, b) :: rest
    else if c = k then (c, a) :: rest
    else (k, b) :: putCall c a rest

/-- A caller has nothing in progress any more. -/
def dropCall (c : Nat) (l : List (Nat × Activity)) : List (Nat × Activity) := l.filter fun p => p.1 != c

/-- "In flight": between the first and the last bus transaction of an operation (R151). An operation of one transaction
never is. -/
def activityInFlight : Activity → Bool
  | .reading _ _ => false
  | .writing _ _ => false
  | .driving _ _ _ .readFsel => false
  | .driving _ _ _ (.writeFsel _) => true
  | .driving _ _ _ .readMask => true
  | .driving _ _ _ (.writeMask _) => true
  | .driving _ _ _ .finish => false

/-- Some operation is in flight (R151). -/
def someInFlight (s : State) : Bool := s.calls.any fun p => activityInFlight p.2

/-- The operation of caller `c` has something left to do. -/
def proceed (c : Nat) (a : Activity) (s : State) : Outcome := .next (s.setCalls (putCall c a s.calls))

/-- The operation of caller `c` ends and returns. -/
def returnTo (c : Nat) (r : Result) (s : State) : Outcome :=
  .next ((s.setCalls (dropCall c s.calls)).setReturned (some (c, r)))

/-- The operation of caller `c` returns an error: "a returned value", no transaction issued, the state as before (R240). -/
def errorTo (c : Nat) (e : OpError) (s : State) : Outcome := returnTo c (.err e) s

end Sys2Proof.Machine
end

