-- ==== Sys2Proof/Machine/FunctionSelect.lean ====
section
/-! DEFINITION. The function-select registers GPFSEL0 to GPFSEL3 (R110 to R117). -/

namespace Sys2Proof.Machine

/-- `RD.GPFSEL0` answers `FSEL[0]` (R110). -/
def execRdGpfsel0 (s : State) : Outcome := readFsel 0 s

/-- `WR.GPFSEL0`: `FSEL[0] <- data & 0x3FFFFFFF` (R111). -/
def execWrGpfsel0 (data : Word) (s : State) : Outcome := writeFsel 0 data s

/-- `RD.GPFSEL1` answers `FSEL[1]` (R112). -/
def execRdGpfsel1 (s : State) : Outcome := readFsel 1 s

/-- `WR.GPFSEL1`: `FSEL[1] <- data & 0x3FFFFFFF` (R113). -/
def execWrGpfsel1 (data : Word) (s : State) : Outcome := writeFsel 1 data s

/-- `RD.GPFSEL2` answers `FSEL[2]` (R114). -/
def execRdGpfsel2 (s : State) : Outcome := readFsel 2 s

/-- `WR.GPFSEL2`: `FSEL[2] <- data & 0x3FFFFFFF` (R115). -/
def execWrGpfsel2 (data : Word) (s : State) : Outcome := writeFsel 2 data s

/-- `RD.GPFSEL3` answers `FSEL[3]` (R116). -/
def execRdGpfsel3 (s : State) : Outcome := readFsel 3 s

/-- `WR.GPFSEL3`: `FSEL[3] <- data & 0x3FFFFFFF` (R117). -/
def execWrGpfsel3 (data : Word) (s : State) : Outcome := writeFsel 3 data s

end Sys2Proof.Machine
end

