-- ==== Sys2Proof/Machine/NoMeaning.lean ====
section
/-! DEFINITION. The transactions the spec gives no meaning: registers out of scope (R124 to R133), unnamed words (R134,
R135), misaligned accesses (R136, R137). NOTES.md, Stops, quotes each rule. -/

namespace Sys2Proof.Machine

/-- `RD.GPFSEL4`: `refuse(OutOfScopeRegister GPFSEL4)` (R124). -/
def execRdGpfsel4 (s : State) : Outcome := noMeaning (.outOfScopeRegister .gpfsel4) s

/-- `WR.GPFSEL4`: `refuse(OutOfScopeRegister GPFSEL4)` (R125). -/
def execWrGpfsel4 (_data : Word) (s : State) : Outcome := noMeaning (.outOfScopeRegister .gpfsel4) s

/-- `RD.GPFSEL5`: `refuse(OutOfScopeRegister GPFSEL5)` (R126). -/
def execRdGpfsel5 (s : State) : Outcome := noMeaning (.outOfScopeRegister .gpfsel5) s

/-- `WR.GPFSEL5`: `refuse(OutOfScopeRegister GPFSEL5)` (R127). -/
def execWrGpfsel5 (_data : Word) (s : State) : Outcome := noMeaning (.outOfScopeRegister .gpfsel5) s

/-- `RD.GPSET1`: `refuse(OutOfScopeRegister GPSET1)` (R128). -/
def execRdGpset1 (s : State) : Outcome := noMeaning (.outOfScopeRegister .gpset1) s

/-- `WR.GPSET1`: `refuse(OutOfScopeRegister GPSET1)` (R129). -/
def execWrGpset1 (_data : Word) (s : State) : Outcome := noMeaning (.outOfScopeRegister .gpset1) s

/-- `RD.GPCLR1`: `refuse(OutOfScopeRegister GPCLR1)` (R130). -/
def execRdGpclr1 (s : State) : Outcome := noMeaning (.outOfScopeRegister .gpclr1) s

/-- `WR.GPCLR1`: `refuse(OutOfScopeRegister GPCLR1)` (R131). -/
def execWrGpclr1 (_data : Word) (s : State) : Outcome := noMeaning (.outOfScopeRegister .gpclr1) s

/-- `RD.GPLEV1`: `refuse(OutOfScopeRegister GPLEV1)` (R132). -/
def execRdGplev1 (s : State) : Outcome := noMeaning (.outOfScopeRegister .gplev1) s

/-- `WR.GPLEV1`: `refuse(OutOfScopeRegister GPLEV1)` (R133). -/
def execWrGplev1 (_data : Word) (s : State) : Outcome := noMeaning (.outOfScopeRegister .gplev1) s

/-- `RD.UNNAMED`: `refuse(UnnamedWord woff)` (R134). -/
def execRdUnnamed (woff : WordOffset) (s : State) : Outcome := noMeaning (.unnamedWord woff) s

/-- `WR.UNNAMED`: `refuse(UnnamedWord woff)`; not a no-op, since the word "may change pins in ways this spec does not
know" (R135). -/
def execWrUnnamed (woff : WordOffset) (_data : Word) (s : State) : Outcome := noMeaning (.unnamedWord woff) s

/-- `RD.MISALIGNED`: `refuse(Misaligned boff)` (R136). -/
def execRdMisaligned (boff : ByteOffset) (s : State) : Outcome := noMeaning (.misaligned boff) s

/-- `WR.MISALIGNED`: `refuse(Misaligned boff)` (R137). -/
def execWrMisaligned (boff : ByteOffset) (_data : Word) (s : State) : Outcome := noMeaning (.misaligned boff) s

end Sys2Proof.Machine
end

