-- ==== Sys2Proof/Machine/SetClearLevel.lean ====
section
/-! DEFINITION. The set, clear and level registers of bank 0 (R118 to R123). -/

namespace Sys2Proof.Machine

/-- `RD.GPSET0` answers `WO_READ` (R118). -/
def execRdGpset0 (s : State) : Outcome := readWriteOnly s

/-- `WR.GPSET0`: `OUT <- OUT | data` (R119). -/
def execWrGpset0 (data : Word) (s : State) : Outcome := setLatch data s

/-- `RD.GPCLR0` answers `WO_READ` (R120). -/
def execRdGpclr0 (s : State) : Outcome := readWriteOnly s

/-- `WR.GPCLR0`: `OUT <- OUT & ~data` (R121). -/
def execWrGpclr0 (data : Word) (s : State) : Outcome := clearLatch data s

/-- `RD.GPLEV0` answers the level of every pin, with a fresh draw where the block does not drive (R122). -/
def execRdGplev0 (s : State) : Outcome := readLevels s

/-- `WR.GPLEV0` is dropped: the register is read-only (R123). -/
def execWrGplev0 (_data : Word) (s : State) : Outcome := dropWrite s

end Sys2Proof.Machine
end

