-- ==== Sys2Proof/Machine/Dispatch.lean ====
section
/-! DEFINITION. One arm per instruction of the decode table (R83). -/

namespace Sys2Proof.Machine

/-- The bus transaction `i` at the state `s` (R9, R110 to R137). -/
def exec (i : Instr) (s : State) : Host.Outcome State Fault Refusal :=
  match i with
  | .rdGpfsel0 => Sys2Proof.Machine.execRdGpfsel0 s
  | .wrGpfsel0 data => Sys2Proof.Machine.execWrGpfsel0 data s
  | .rdGpfsel1 => Sys2Proof.Machine.execRdGpfsel1 s
  | .wrGpfsel1 data => Sys2Proof.Machine.execWrGpfsel1 data s
  | .rdGpfsel2 => Sys2Proof.Machine.execRdGpfsel2 s
  | .wrGpfsel2 data => Sys2Proof.Machine.execWrGpfsel2 data s
  | .rdGpfsel3 => Sys2Proof.Machine.execRdGpfsel3 s
  | .wrGpfsel3 data => Sys2Proof.Machine.execWrGpfsel3 data s
  | .rdGpset0 => Sys2Proof.Machine.execRdGpset0 s
  | .wrGpset0 data => Sys2Proof.Machine.execWrGpset0 data s
  | .rdGpclr0 => Sys2Proof.Machine.execRdGpclr0 s
  | .wrGpclr0 data => Sys2Proof.Machine.execWrGpclr0 data s
  | .rdGplev0 => Sys2Proof.Machine.execRdGplev0 s
  | .wrGplev0 data => Sys2Proof.Machine.execWrGplev0 data s
  | .rdGpfsel4 => Sys2Proof.Machine.execRdGpfsel4 s
  | .wrGpfsel4 data => Sys2Proof.Machine.execWrGpfsel4 data s
  | .rdGpfsel5 => Sys2Proof.Machine.execRdGpfsel5 s
  | .wrGpfsel5 data => Sys2Proof.Machine.execWrGpfsel5 data s
  | .rdGpset1 => Sys2Proof.Machine.execRdGpset1 s
  | .wrGpset1 data => Sys2Proof.Machine.execWrGpset1 data s
  | .rdGpclr1 => Sys2Proof.Machine.execRdGpclr1 s
  | .wrGpclr1 data => Sys2Proof.Machine.execWrGpclr1 data s
  | .rdGplev1 => Sys2Proof.Machine.execRdGplev1 s
  | .wrGplev1 data => Sys2Proof.Machine.execWrGplev1 data s
  | .rdUnnamed woff => Sys2Proof.Machine.execRdUnnamed woff s
  | .wrUnnamed woff data => Sys2Proof.Machine.execWrUnnamed woff data s
  | .rdMisaligned boff => Sys2Proof.Machine.execRdMisaligned boff s
  | .wrMisaligned boff data => Sys2Proof.Machine.execWrMisaligned boff data s

end Sys2Proof.Machine
end

