-- ==== Sys2Proof/Machine/RegisterMap.lean ====
section
/-! DEFINITION. The Register Map's accessors (R152 to R155) as sequences of bus transactions (R94). A call runs the checks
and leaves the transaction to be performed when the caller moves next (log entry 9). -/

namespace Sys2Proof.Machine

/-- `RD32(woff)`: the transaction, decoded and executed like any other (R81, R83). -/
def busRead (woff : WordOffset) (s : State) : Outcome := exec (decodeRecord (rd32 woff)) s

/-- `WR32(woff, v)` (R81, R83). -/
def busWrite (woff : WordOffset) (v : Word) (s : State) : Outcome := exec (decodeRecord (wr32 woff v)) s

/-- The checks of `read_word`: the lifetime, then the bound `BLOCK_WORDS` (R58, R152). -/
def beginRead (c offset : Nat) (use : ReadUse) (s : State) : Outcome :=
  whenMapped s
    (if offset < blockWords then proceed c (.reading (BitVec.ofNat 10 offset) use) s else errorTo c .outOfRange s)

/-- `read_word(block, offset)` (R152). -/
def opReadWord (c offset : Nat) (s : State) : Outcome := beginRead c offset .word s

/-- `write_word(block, offset, value)` (R153). -/
def opWriteWord (c offset : Nat) (value : Word) (s : State) : Outcome :=
  whenMapped s
    (if offset < blockWords then proceed c (.writing (BitVec.ofNat 10 offset) value) s else errorTo c .outOfRange s)

/-- `get_bit(block, word_offset, bit_index)`: the bit index is checked first (R154). -/
def opGetBit (c wordOffset bitIndex : Nat) (s : State) : Outcome :=
  match admittedPin bitIndex with
  | some k => beginRead c wordOffset (.bit k) s
  | none => .refused .shiftByWidth

/-- What a one-read operation makes of the word: the word, `(t >> k) & 1`, or the status line (R152, R154, R200). -/
def readResult (use : ReadUse) (t : Word) : Result :=
  match use with
  | .word => .word t
  | .bit k => .bit t[k]
  | .status => .bytes (statusLine t[statusPin])

/-- The one transaction of `read_word`, `get_bit`, `read_level` or `status_read`, and the return (R152). -/
def stepReading (c : Nat) (woff : WordOffset) (use : ReadUse) (s : State) : Outcome :=
  andThen (busRead woff s) fun s' => returnTo c (readResult use s'.replyWord) s'

/-- The one transaction of `write_word`, and the return (R153). -/
def stepWriting (c : Nat) (woff : WordOffset) (value : Word) (s : State) : Outcome :=
  andThen (busWrite woff value s) fun s' => returnTo c .done s'

end Sys2Proof.Machine
end

