-- ==== Sys2Proof/Machine/PinController.lean ====
section
/-! DEFINITION. The Pin Controller (R170 to R182): `read_level` and `drive_pin` as sequences of bus transactions. -/

namespace Sys2Proof.Machine

/-- `read_level(block, pin)`: the lifetime, then the pin, then `get_bit(block, GPLEV0, pin)` (R172). -/
def opReadLevel (c pin : Nat) (s : State) : Outcome :=
  whenMapped s
    (match admittedPin pin with
     | some p => beginRead c gplev0Woff.toNat (.bit p) s
     | none => errorTo c .invalidPin s)

/-- The checks of `drive_pin`, in the order lifetime, pin, desired (R173, R181): an error comes before any transaction. -/
def beginDrive (c pin desired : Nat) (origin : DriveOrigin) (s : State) : Outcome :=
  whenMapped s
    (match admittedPin pin with
     | some p =>
       if desired ≤ 1 then proceed c (.driving p (desired == 1) origin .readFsel) s else errorTo c .invalidValue s
     | none => errorTo c .invalidPin s)

/-- `drive_pin(block, pin, desired)` called directly (R173). -/
def opDrivePin (c pin desired : Nat) (s : State) : Outcome := beginDrive c pin desired .direct s

/-- What the end of a `drive_pin` returns: `Ok`, or the count of the command that asked for it (R173, R206). -/
def driveResult : DriveOrigin → Result
  | .direct => .ok
  | .command n => .count n

/-- What `drive_pin` leaves in `VIEW[pin]` (R173, R182). -/
def drivenView (desired : Bool) : PinView := if desired then .outputHigh else .outputLow

/-- The next step of a `drive_pin`: one bus transaction (R174, R175), or the `VIEW` update and the return (R173). -/
def stepDriving (c : Nat) (pin : Fin 32) (desired : Bool) (origin : DriveOrigin) (stage : DriveStage) (s : State) :
    Outcome :=
  match stage with
  | .readFsel =>
    andThen (busRead (fselWoff (fselIndex pin)) s) fun s' =>
      proceed c (.driving pin desired origin (.writeFsel s'.replyWord)) s'
  | .writeFsel t =>
    andThen (busWrite (fselWoff (fselIndex pin)) (configureOutput pin t) s) fun s' =>
      proceed c (.driving pin desired origin .readMask) s'
  | .readMask =>
    andThen (busRead (driveWoff desired) s) fun s' =>
      proceed c (.driving pin desired origin (.writeMask s'.replyWord)) s'
  | .writeMask m =>
    andThen (busWrite (driveWoff desired) (m ||| pinBit pin) s) fun s' =>
      proceed c (.driving pin desired origin .finish) s'
  | .finish => returnTo c (driveResult origin) (s.setView pin (drivenView desired))

end Sys2Proof.Machine
end

