-- ==== Sys2Proof/Machine/CommandSurface.lean ====
section
/-! DEFINITION. The command surface (R200 to R206): the status line and the command write. -/

namespace Sys2Proof.Machine

/-- `status_read()`: `read_level(block, 4)`, then the text (R200). -/
def opStatusRead (c : Nat) (s : State) : Outcome := whenMapped s (beginRead c gplev0Woff.toNat .status s)

/-- `command_write(input)`: the buffer is zeroed and filled, parsed and checked in one step; a bad text changes nothing
more and the full length is returned; a good one goes on as a `drive_pin` (R201 to R206). -/
def opCommandWrite (c : Nat) (input : List Byte) (s : State) : Outcome :=
  whenMapped s
    (let s' := s.setCmdBuf (fillBuffer input)
     match commandVerdict (bufferText (fillBuffer input)) with
     | .refuse => .refused .integerTokenOverflow
     | .recovered _ => returnTo c (.count input.length) s'
     | .drive pin desired => beginDrive c pin desired (.command input.length) s')

end Sys2Proof.Machine
end

