-- ==== Sys2Proof/Machine/Lifecycle.lean ====
section
/-! DEFINITION. The lifecycle: `map` and `unmap` (R150, R151), `start` and `stop` (R207, R208). None of them reads or
writes a register. -/

namespace Sys2Proof.Machine

/-- One attempt to map: the excluded facility's choice, a free value (R150). -/
def tryMap (s : State) : State :=
  if Config.mapSucceeds s.hostDraws then s.countHostDraw.setLife .mapped else s.countHostDraw

/-- `map(base_address)` (R150). -/
def opMap (c base : Nat) (s : State) : Outcome :=
  if s.life ≠ .unmapped then .refused .mapTwice
  else if base ≠ s.params.gpioBase then .refused .mapWrongBase
  else if Config.mapSucceeds s.hostDraws then returnTo c (.handle base) (tryMap s)
  else errorTo c .mapFailure (tryMap s)

/-- Release the mapping: refused when nothing is mapped or an operation is in flight (R151). -/
def unmapBlock (s : State) : Outcome :=
  if s.life ≠ .mapped then .refused .unmapNotMapped
  else if someInFlight s then .refused .unmapInFlight
  else .next (s.setLife .destroyed)

/-- `unmap(block)` (R151). -/
def opUnmap (c : Nat) (s : State) : Outcome := andThen (unmapBlock s) fun s' => returnTo c .done s'

/-- `start()`: map; publish, which may fail; on that failure unmap and abort (R207). -/
def opStart (c : Nat) (s : State) : Outcome :=
  if s.life ≠ .unmapped then .refused .mapTwice
  else if Config.mapSucceeds s.hostDraws then
    let mapped := tryMap s
    if Config.publishSucceeds mapped.hostDraws then returnTo c .done mapped.countHostDraw
    else andThen (unmapBlock mapped.countHostDraw) fun s' => returnTo c .startAborted s'
  else errorTo c .mapFailure (tryMap s)

/-- `stop()`: the endpoint is withdrawn by the excluded facility, then the block is unmapped (R208). -/
def opStop (c : Nat) (s : State) : Outcome := opUnmap c s

end Sys2Proof.Machine
end

