-- ==== Sys2Proof/Machine/Callers.lean ====
section
/-! DEFINITION. What the masters do (R61): raw transactions, and callers that begin operations and perform their
transactions one at a time, in any interleaving the list of inputs names. -/

namespace Sys2Proof.Machine

/-- The operation a caller begins. -/
def runOp (c : Nat) (op : Op) (s : State) : Outcome :=
  match op with
  | .map base => opMap c base s
  | .unmap => opUnmap c s
  | .readWord offset => opReadWord c offset s
  | .writeWord offset value => opWriteWord c offset value s
  | .getBit wordOffset bitIndex => opGetBit c wordOffset bitIndex s
  | .readLevel pin => opReadLevel c pin s
  | .drivePin pin desired => opDrivePin c pin desired s
  | .statusRead => opStatusRead c s
  | .commandWrite input => opCommandWrite c input s
  | .start => opStart c s
  | .stop => opStop c s

/-- A caller runs one operation at a time (R60). -/
def beginOp (c : Nat) (op : Op) (s : State) : Outcome :=
  match findCall c s.calls with
  | some _ => .refused .callerBusy
  | none => runOp c op s

/-- The caller's next transaction or return; with nothing in progress the caller is idle (log entry 11). -/
def resumeCall (c : Nat) (s : State) : Outcome :=
  match findCall c s.calls with
  | none => .next s
  | some (.reading woff use) => stepReading c woff use s
  | some (.writing woff value) => stepWriting c woff value s
  | some (.driving pin desired origin stage) => stepDriving c pin desired origin stage s

/-- Serve one input. -/
def serve (i : Input) (s : State) : Outcome :=
  match i with
  | .bus r => exec (decodeRecord r) s
  | .access write addr data =>
    match recordOfAccess s.params write addr data with
    | some r => exec (decodeRecord r) s
    | none => .refused .outsideWindow
  | .call c op => beginOp c op s
  | .resume c => resumeCall c s

end Sys2Proof.Machine
end

