-- ==== Sys2Proof/Machine/Step.lean ====
section
/-! DEFINITION. The step: serve the oldest input; with none the block "is otherwise idle" (R21). -/

namespace Sys2Proof.Machine

/-- One step (R9, R21, R61). -/
def step (s : State) : Host.Outcome State Fault Refusal :=
  match s.inputs with
  | [] => .next s
  | i :: rest => serve i (s.accept rest)

/-- `s` with the transaction of a table word as the next input, in the lifetime of the mapping, which every transaction
needs (R40): the next step runs exactly it (log entry 7). Where the word holds no record nothing is placed. -/
def State.withFetchWord (s : State) (nbits w : Nat) : State :=
  match recordOfBytes (tableWordBytes nbits w) with
  | .ok (r, _) => { s with inputs := .bus r :: s.inputs, life := .mapped }
  | .error _ => s

end Sys2Proof.Machine
end

