-- ==== Sys2Proof/Safety.lean ====
section
/-! DEFINITION. What the statements speak of: the invariant of the state (R44, R66), runs of a few steps, and the bus
transaction an input stands for (R61). A run that is
refused is no run of the machine (R14); nothing faults (R237). -/

namespace Sys2Proof.Machine

/-- Bits 31:30 of every function-select word are 0 (R32, R44). -/
def ReservedBitsZero (s : State) : Prop := ∀ n : Fin 4, s.fsel[n].extractLsb' 30 2 = 0#2

/-- The operations in progress stand in their one canonical form: strictly rising by caller. -/
def CallsSorted (s : State) : Prop := s.calls.Pairwise fun a b => a.1 < b.1

/-- No operation is in flight outside the lifetime of the mapping (R66, R151). -/
def FlightOnlyMapped (s : State) : Prop := someInFlight s = true → s.life = .mapped

/-- A mask read from GPSET0 or GPCLR0 and waiting to be written back is `WO_READ` (R39, R175). -/
def PendingMaskIsWoRead (s : State) : Prop :=
  ∀ c p d o m, (c, Activity.driving p d o (.writeMask m)) ∈ s.calls → m = s.params.woRead

/-- The invariant of the state. -/
structure Inv (s : State) : Prop where
  reserved : ReservedBitsZero s
  sorted : CallsSorted s
  flight : FlightOnlyMapped s
  mask : PendingMaskIsWoRead s

/-- `n` steps, ending at the first refusal (R14: "A refusal ends the run it occurs in", 95_test_vectors.md P6). -/
def runSteps : Nat → State → Outcome
  | 0, s => .next s
  | n + 1, s => andThen (step s) (runSteps n)

/-- The same state with these inputs to serve. -/
def State.withInputs (s : State) (l : List Input) : State := { s with inputs := l }

/-- Caller `c` runs an operation of `n` further moves with nobody between them (R60). -/
def aloneInputs (c : Nat) (op : Op) (n : Nat) : List Input := .call c op :: List.replicate n (.resume c)

/-- The read of function-select register `n` (R110, R112, R114, R116). -/
def fselRead : Fin 4 → Instr
  | 0 => .rdGpfsel0
  | 1 => .rdGpfsel1
  | 2 => .rdGpfsel2
  | 3 => .rdGpfsel3

/-- The write of function-select register `n` (R111, R113, R115, R117). -/
def fselWrite : Fin 4 → Word → Instr
  | 0, d => .wrGpfsel0 d
  | 1, d => .wrGpfsel1 d
  | 2, d => .wrGpfsel2 d
  | 3, d => .wrGpfsel3 d

/-- The bus transaction an operation in progress performs next (R152, R153, R174, R175); a `drive_pin` past its last
transaction has none. -/
def nextTransaction : Activity → Option Instr
  | .reading woff _ => some (decodeRecord (rd32 woff))
  | .writing woff value => some (decodeRecord (wr32 woff value))
  | .driving p _ _ .readFsel => some (decodeRecord (rd32 (fselWoff (fselIndex p))))
  | .driving p _ _ (.writeFsel t) => some (decodeRecord (wr32 (fselWoff (fselIndex p)) (configureOutput p t)))
  | .driving _ d _ .readMask => some (decodeRecord (rd32 (driveWoff d)))
  | .driving p d _ (.writeMask m) => some (decodeRecord (wr32 (driveWoff d) (m ||| pinBit p)))
  | .driving _ _ _ .finish => none

/-- The bus transaction the oldest input stands for: a raw record's, an access's inside the window, the next one of the
caller that moves. The call of an operation performs none (R61). -/
def servedTransaction (s : State) : Option Instr :=
  match s.inputs with
  | [] => none
  | .bus r :: _ => some (decodeRecord r)
  | .access write addr data :: _ => (recordOfAccess s.params write addr data).map decodeRecord
  | .call _ _ :: _ => none
  | .resume c :: _ => (findCall c s.calls).bind nextTransaction

/-- A caller that may begin an operation on the mapped block: it has none in progress. -/
def Idle (c : Nat) (s : State) : Prop := findCall c s.calls = none

end Sys2Proof.Machine
end

