-- ==== Sys2Proof/Certificates/Slice0/Obligations.lean ====
section
/-! DEFINITION. The statements for the provers, from the numbered rules of spec/. -/

open Sys2Proof Sys2Proof.Machine

/-! Encoding (R80 to R83) and the pin-index decoder (R84 to R89). -/

/-- Decoding the bytes of any well-formed instruction gives it back, and the bytes after it. -/
def Obligations.DecodeEncodeRoundTrip : Prop :=
  ∀ (i : Instr) (rest : List Byte), i.WellFormed → decode (encode i ++ rest) = .ok (i, rest)

/-- Every record is named by the first row of the decode table that matches its header. -/
def Obligations.DecoderFollowsTheTable : Prop :=
  ∀ r : Record,
    tableMnemonic (recordHeader r) = some (instrMnemonic (decodeRecord r)) ∧
    (decodeRecord r).WellFormed ∧
    instrHeader (decodeRecord r) = recordHeader r ∧
    ((recordHeader r).getLsbD 12 = true → instrData (decodeRecord r) = recordData r)

/-- Encoding a decoded record gives the record back, with the ignored data of a read set to 0. -/
def Obligations.EncodingADecodedRecordRestoresIt : Prop :=
  ∀ r : Record,
    encodeRecord (decodeRecord r) =
      recordHeader r ++ (if (recordHeader r).getLsbD 12 then recordData r else 0#32)

/-- Twelve records of the decode vectors decode to the instructions they stand for. -/
def Obligations.SampleRecordsDecode : Prop :=
  decodeRecord 0x000000000000#45 = .rdGpfsel0 ∧
  decodeRecord 0x0000DEADBEEF#45 = .rdGpfsel0 ∧
  decodeRecord 0x100000001000#45 = .wrGpfsel0 0x00001000 ∧
  decodeRecord 0x100CFFFFFFFF#45 = .wrGpfsel3 0xFFFFFFFF ∧
  decodeRecord 0x101C00000010#45 = .wrGpset0 0x00000010 ∧
  decodeRecord 0x102880000000#45 = .wrGpclr0 0x80000000 ∧
  decodeRecord 0x003400000000#45 = .rdGplev0 ∧
  decodeRecord 0x103412345678#45 = .wrGplev0 0x12345678 ∧
  decodeRecord 0x101400000001#45 = .wrGpfsel5 0x00000001 ∧
  decodeRecord 0x103000000005#45 = .wrUnnamed 12 0x00000005 ∧
  decodeRecord 0x0FFF00000000#45 = .rdMisaligned 0xFFF ∧
  decodeRecord 0x102A00000010#45 = .wrMisaligned 0x02A 0x00000010

/-- The table of R88, pins 0 to 15: pin, index, position, shift, highest and lowest bit of the field, clear mask, output bit, bank bit. -/
def pinTableLow : List (Fin 32 × Nat × Nat × Nat × Nat × Nat × Word × Word × Word) :=
  [(0, 0, 0, 0, 2, 0, 0xFFFFFFF8#32, 0x00000001#32, 0x00000001#32),
   (1, 0, 1, 3, 5, 3, 0xFFFFFFC7#32, 0x00000008#32, 0x00000002#32),
   (2, 0, 2, 6, 8, 6, 0xFFFFFE3F#32, 0x00000040#32, 0x00000004#32),
   (3, 0, 3, 9, 11, 9, 0xFFFFF1FF#32, 0x00000200#32, 0x00000008#32),
   (4, 0, 4, 12, 14, 12, 0xFFFF8FFF#32, 0x00001000#32, 0x00000010#32),
   (5, 0, 5, 15, 17, 15, 0xFFFC7FFF#32, 0x00008000#32, 0x00000020#32),
   (6, 0, 6, 18, 20, 18, 0xFFE3FFFF#32, 0x00040000#32, 0x00000040#32),
   (7, 0, 7, 21, 23, 21, 0xFF1FFFFF#32, 0x00200000#32, 0x00000080#32),
   (8, 0, 8, 24, 26, 24, 0xF8FFFFFF#32, 0x01000000#32, 0x00000100#32),
   (9, 0, 9, 27, 29, 27, 0xC7FFFFFF#32, 0x08000000#32, 0x00000200#32),
   (10, 1, 0, 0, 2, 0, 0xFFFFFFF8#32, 0x00000001#32, 0x00000400#32),
   (11, 1, 1, 3, 5, 3, 0xFFFFFFC7#32, 0x00000008#32, 0x00000800#32),
   (12, 1, 2, 6, 8, 6, 0xFFFFFE3F#32, 0x00000040#32, 0x00001000#32),
   (13, 1, 3, 9, 11, 9, 0xFFFFF1FF#32, 0x00000200#32, 0x00002000#32),
   (14, 1, 4, 12, 14, 12, 0xFFFF8FFF#32, 0x00001000#32, 0x00004000#32),
   (15, 1, 5, 15, 17, 15, 0xFFFC7FFF#32, 0x00008000#32, 0x00008000#32)]

/-- The table of R88, pins 16 to 31. -/
def pinTableHigh : List (Fin 32 × Nat × Nat × Nat × Nat × Nat × Word × Word × Word) :=
  [(16, 1, 6, 18, 20, 18, 0xFFE3FFFF#32, 0x00040000#32, 0x00010000#32),
   (17, 1, 7, 21, 23, 21, 0xFF1FFFFF#32, 0x00200000#32, 0x00020000#32),
   (18, 1, 8, 24, 26, 24, 0xF8FFFFFF#32, 0x01000000#32, 0x00040000#32),
   (19, 1, 9, 27, 29, 27, 0xC7FFFFFF#32, 0x08000000#32, 0x00080000#32),
   (20, 2, 0, 0, 2, 0, 0xFFFFFFF8#32, 0x00000001#32, 0x00100000#32),
   (21, 2, 1, 3, 5, 3, 0xFFFFFFC7#32, 0x00000008#32, 0x00200000#32),
   (22, 2, 2, 6, 8, 6, 0xFFFFFE3F#32, 0x00000040#32, 0x00400000#32),
   (23, 2, 3, 9, 11, 9, 0xFFFFF1FF#32, 0x00000200#32, 0x00800000#32),
   (24, 2, 4, 12, 14, 12, 0xFFFF8FFF#32, 0x00001000#32, 0x01000000#32),
   (25, 2, 5, 15, 17, 15, 0xFFFC7FFF#32, 0x00008000#32, 0x02000000#32),
   (26, 2, 6, 18, 20, 18, 0xFFE3FFFF#32, 0x00040000#32, 0x04000000#32),
   (27, 2, 7, 21, 23, 21, 0xFF1FFFFF#32, 0x00200000#32, 0x08000000#32),
   (28, 2, 8, 24, 26, 24, 0xF8FFFFFF#32, 0x01000000#32, 0x10000000#32),
   (29, 2, 9, 27, 29, 27, 0xC7FFFFFF#32, 0x08000000#32, 0x20000000#32),
   (30, 3, 0, 0, 2, 0, 0xFFFFFFF8#32, 0x00000001#32, 0x40000000#32),
   (31, 3, 1, 3, 5, 3, 0xFFFFFFC7#32, 0x00000008#32, 0x80000000#32)]

/-- The pin-index decoder gives the tabulated values for every pin of bank 0. -/
def Obligations.PinDecoderMatchesItsTable : Prop :=
  (pinTableLow ++ pinTableHigh).map (·.1) = List.finRange 32 ∧
  ∀ row ∈ pinTableLow ++ pinTableHigh,
    fselIndex row.1 = row.2.1 ∧ fselBitpos row.1 = row.2.2.1 ∧ fselShift row.1 = row.2.2.2.1 ∧
    (∀ k : Fin 32, (fselPlace row.1 0b111)[k] = decide (row.2.2.2.2.2.1 ≤ k ∧ k ≤ row.2.2.2.2.1)) ∧
    fselClearMask row.1 = row.2.2.2.2.2.2.1 ∧ fselOutputBit row.1 = row.2.2.2.2.2.2.2.1 ∧
    pinBit row.1 = row.2.2.2.2.2.2.2.2

/-- The fields of pins that share a word do not overlap, no field reaches bits 31:30, and bank bits are disjoint. -/
def Obligations.PinMasksAreDisjoint : Prop :=
  (∀ p : Fin 32,
    fselClearMask p ||| fselPlace p 0b111 = 0xFFFFFFFF ∧ fselClearMask p &&& fselPlace p 0b111 = 0 ∧
    fselOutputBit p = fselPlace p 0b001 ∧ fselPlace p 0b111 &&& 0xC0000000 = 0 ∧
    10 * fselIndex p + fselBitpos p = p) ∧
  (∀ p q : Fin 32, p ≠ q → fselIndex p = fselIndex q → fselPlace p 0b111 &&& fselPlace q 0b111 = 0) ∧
  (∀ p q : Fin 32, p ≠ q → pinBit p &&& pinBit q = 0)

/-- The decoder as a whole is defined for pins 0 to 31 and gives no value above. -/
def Obligations.PinsAbove31HaveNoBankBit : Prop :=
  (∀ p : Fin 32, admittedPin p = some p ∧ pinBank p = some 0) ∧
  (∀ n : Nat, 32 ≤ n → admittedPin n = none ∧ pinBank n = none)

/-- The word drive_pin writes back has 0b001 in the pin's field and every other field and bits 31:30 as read. -/
def Obligations.ConfigureOutputChangesOneField : Prop :=
  ∀ (p : Fin 32) (t : Word),
    fselFieldOf (configureOutput p t) (fselBitpos p) = 0b001#3 ∧
    (∀ k : Fin 10, k.val ≠ fselBitpos p → fselFieldOf (configureOutput p t) k = fselFieldOf t k) ∧
    (configureOutput p t).extractLsb' 30 2 = t.extractLsb' 30 2 ∧
    (fselFieldOf t (fselBitpos p) = 0b001#3 → configureOutput p t = t)

/-! The step. -/

/-- A step with a record to serve is exec of the instruction the record decodes to. -/
def Obligations.StepRunsTheDecodedTransaction : Prop :=
  (∀ (s : State) (r : Record) (rest : List Input), s.inputs = .bus r :: rest →
    step s = exec (decodeRecord r) { s with inputs := rest, reply := none, returned := none }) ∧
  (∀ (s : State) (i : Instr), i.WellFormed →
    step (s.withFetchWord 48 (encodeRecord i).toNat) =
      exec i { s with life := .mapped, reply := none, returned := none }) ∧
  (∀ s : State, s.inputs = [] → step s = .next s)

/-- An access at GPIO_BASE + 4 * woff is the transaction on word woff; one outside the window reaches nothing. -/
def Obligations.PhysicalAddressNamesTheWord : Prop :=
  (∀ (s : State) (write : Bool) (woff : WordOffset) (data : Word) (rest : List Input),
    s.inputs = .access write (s.params.gpioBase + 4 * woff.toNat) data :: rest →
    step s = exec (decodeRecord (if write then wr32 woff data else rd32 woff))
      { s with inputs := rest, reply := none, returned := none }) ∧
  (∀ (s : State) (write : Bool) (addr : Nat) (data : Word) (rest : List Input),
    s.inputs = .access write addr data :: rest →
    addr < s.params.gpioBase ∨ s.params.gpioBase + 4096 ≤ addr → step s = .refused .outsideWindow)

/-! The bus transactions (R110 to R139). -/

/-- A read of GPFSEL0 to GPFSEL3 completes and answers the stored word, everything else unchanged. -/
def Obligations.FunctionSelectReadsAnswerTheWord : Prop :=
  (∀ s : State, s.life = .mapped →
    exec .rdGpfsel0 s = .next { s with reply := some s.fsel[0] } ∧
    exec .rdGpfsel1 s = .next { s with reply := some s.fsel[1] } ∧
    exec .rdGpfsel2 s = .next { s with reply := some s.fsel[2] } ∧
    exec .rdGpfsel3 s = .next { s with reply := some s.fsel[3] } ∧
    (ReservedBitsZero s → ∀ n : Fin 4, ∃ v : Word,
      exec (fselRead n) s = .next { s with reply := some v } ∧ v.extractLsb' 30 2 = 0#2)) ∧
  (∀ d : Word,
    decodeRecord (0x0000#13 ++ d) = .rdGpfsel0 ∧ decodeRecord (0x0004#13 ++ d) = .rdGpfsel1 ∧
    decodeRecord (0x0008#13 ++ d) = .rdGpfsel2 ∧ decodeRecord (0x000C#13 ++ d) = .rdGpfsel3)

/-- A write of GPFSEL0 to GPFSEL3 completes and replaces the whole word less bits 31:30, everything else unchanged. -/
def Obligations.FunctionSelectWritesReplaceTheWord : Prop :=
  ∀ (s : State) (d : Word), s.life = .mapped →
    decodeRecord (0x1000#13 ++ d) = .wrGpfsel0 d ∧ decodeRecord (0x1004#13 ++ d) = .wrGpfsel1 d ∧
    decodeRecord (0x1008#13 ++ d) = .wrGpfsel2 d ∧ decodeRecord (0x100C#13 ++ d) = .wrGpfsel3 d ∧
    exec (.wrGpfsel0 d) s = .next { s with fsel := s.fsel.set 0 (d &&& 0x3FFFFFFF), reply := none } ∧
    exec (.wrGpfsel1 d) s = .next { s with fsel := s.fsel.set 1 (d &&& 0x3FFFFFFF), reply := none } ∧
    exec (.wrGpfsel2 d) s = .next { s with fsel := s.fsel.set 2 (d &&& 0x3FFFFFFF), reply := none } ∧
    exec (.wrGpfsel3 d) s = .next { s with fsel := s.fsel.set 3 (d &&& 0x3FFFFFFF), reply := none }

/-- A read of GPSET0 or GPCLR0 completes and answers WO_READ, never the latch, everything else unchanged. -/
def Obligations.WriteOnlyReadsAnswerWoRead : Prop :=
  ∀ (s : State) (d : Word), s.life = .mapped →
    decodeRecord (0x001C#13 ++ d) = .rdGpset0 ∧ decodeRecord (0x0028#13 ++ d) = .rdGpclr0 ∧
    exec .rdGpset0 s = .next { s with reply := some s.params.woRead } ∧
    exec .rdGpclr0 s = .next { s with reply := some s.params.woRead }

/-- A write of GPSET0 sets and a write of GPCLR0 clears the latch bits of the 1s written, everything else unchanged. -/
def Obligations.SetAndClearActOnTheLatch : Prop :=
  ∀ (s : State) (d : Word), s.life = .mapped →
    decodeRecord (0x101C#13 ++ d) = .wrGpset0 d ∧ decodeRecord (0x1028#13 ++ d) = .wrGpclr0 d ∧
    exec (.wrGpset0 d) s = .next { s with out := s.out ||| d, reply := none } ∧
    exec (.wrGpclr0 d) s = .next { s with out := s.out &&& ~~~d, reply := none } ∧
    (∀ p : Fin 32, (s.out ||| d)[p] = if d[p] then true else s.out[p]) ∧
    (∀ p : Fin 32, (s.out &&& ~~~d)[p] = if d[p] then false else s.out[p])

/-- A read of GPLEV0 completes and answers the latch bit of every output pin and a fresh draw for every other pin. -/
def Obligations.LevelReadAnswersLatchOrDraw : Prop :=
  (∀ d : Word, decodeRecord (0x0034#13 ++ d) = .rdGplev0) ∧
  ∀ s : State, s.life = .mapped → ∃ v : Word,
    exec .rdGplev0 s = .next { s with reply := some v, padDraws := s.padDraws + 1 } ∧
    (∀ p : Fin 32, v[p] =
      if fselField s (fieldPin p) = 0b001#3 then s.out[p] else (Config.padDraw s.padDraws)[p]) ∧
    ((∀ p : Fin 32, fselField s (fieldPin p) = 0b001#3) → v = s.out)

/-- A write of GPLEV0 completes and changes no state. -/
def Obligations.LevelWriteIsDropped : Prop :=
  ∀ (s : State) (d : Word), s.life = .mapped →
    decodeRecord (0x1034#13 ++ d) = .wrGplev0 d ∧ exec (.wrGplev0 d) s = .next { s with reply := none }

/-- Every access to GPFSEL4, GPFSEL5, GPSET1, GPCLR1 and GPLEV1 is refused under the register's name. -/
def Obligations.OutOfScopeRegistersAreRefused : Prop :=
  ∀ (s : State) (d : Word), s.life = .mapped →
    decodeRecord (0x0010#13 ++ d) = .rdGpfsel4 ∧ decodeRecord (0x1010#13 ++ d) = .wrGpfsel4 d ∧
    decodeRecord (0x0014#13 ++ d) = .rdGpfsel5 ∧ decodeRecord (0x1014#13 ++ d) = .wrGpfsel5 d ∧
    decodeRecord (0x0020#13 ++ d) = .rdGpset1 ∧ decodeRecord (0x1020#13 ++ d) = .wrGpset1 d ∧
    decodeRecord (0x002C#13 ++ d) = .rdGpclr1 ∧ decodeRecord (0x102C#13 ++ d) = .wrGpclr1 d ∧
    decodeRecord (0x0038#13 ++ d) = .rdGplev1 ∧ decodeRecord (0x1038#13 ++ d) = .wrGplev1 d ∧
    exec .rdGpfsel4 s = .refused (.outOfScopeRegister .gpfsel4) ∧
    exec (.wrGpfsel4 d) s = .refused (.outOfScopeRegister .gpfsel4) ∧
    exec .rdGpfsel5 s = .refused (.outOfScopeRegister .gpfsel5) ∧
    exec (.wrGpfsel5 d) s = .refused (.outOfScopeRegister .gpfsel5) ∧
    exec .rdGpset1 s = .refused (.outOfScopeRegister .gpset1) ∧
    exec (.wrGpset1 d) s = .refused (.outOfScopeRegister .gpset1) ∧
    exec .rdGpclr1 s = .refused (.outOfScopeRegister .gpclr1) ∧
    exec (.wrGpclr1 d) s = .refused (.outOfScopeRegister .gpclr1) ∧
    exec .rdGplev1 s = .refused (.outOfScopeRegister .gplev1) ∧
    exec (.wrGplev1 d) s = .refused (.outOfScopeRegister .gplev1)

/-- A read or write of any aligned word that no row names is refused with its word offset. -/
def Obligations.UnnamedWordsAreRefused : Prop :=
  ∀ (s : State) (woff : WordOffset) (d : Word), s.life = .mapped →
    woff ∉ [0#10, 1#10, 2#10, 3#10, 4#10, 5#10, 7#10, 8#10, 10#10, 11#10, 13#10, 14#10] →
    decodeRecord (rd32 woff) = .rdUnnamed woff ∧ decodeRecord (wr32 woff d) = .wrUnnamed woff d ∧
    exec (.rdUnnamed woff) s = .refused (.unnamedWord woff) ∧
    exec (.wrUnnamed woff d) s = .refused (.unnamedWord woff)

/-- A transaction at a byte offset that is no multiple of 4 is refused with its byte offset. -/
def Obligations.MisalignedAccessesAreRefused : Prop :=
  ∀ (s : State) (boff : ByteOffset) (d : Word), s.life = .mapped → boff.extractLsb' 0 2 ≠ 0#2 →
    decodeRecord ((0#1 ++ boff : Header) ++ d) = .rdMisaligned boff ∧
    decodeRecord ((1#1 ++ boff : Header) ++ d) = .wrMisaligned boff d ∧
    exec (.rdMisaligned boff) s = .refused (.misaligned boff) ∧
    exec (.wrMisaligned boff d) s = .refused (.misaligned boff)

/-- Every transaction while LIFE is not Mapped is refused as a use outside the lifetime. -/
def Obligations.NoTransactionOutsideTheLifetime : Prop :=
  ∀ (s : State) (i : Instr), s.life ≠ .mapped → exec i s = .refused .useOutsideLifetime

/-- What a completed transaction leaves unchanged: all but the one register its rule names. -/
def Obligations.BusTransactionFrame : Prop :=
  ∀ (s t : State) (i : Instr), exec i s = .next t →
    (t.life = s.life ∧ t.cmdBuf = s.cmdBuf ∧ t.view = s.view ∧ t.params = s.params ∧
      t.returned = s.returned ∧ t.calls = s.calls ∧ t.inputs = s.inputs ∧ t.hostDraws = s.hostDraws) ∧
    (∀ n : Fin 4, (∀ d, i ≠ fselWrite n d) → t.fsel[n] = s.fsel[n]) ∧
    ((∀ d, i ≠ .wrGpset0 d ∧ i ≠ .wrGpclr0 d) → t.out = s.out) ∧
    (i ≠ .rdGplev0 → t.padDraws = s.padDraws) ∧
    t.reply.isSome = !(instrHeader i).getLsbD 12

/-- A transaction moves a latch bit up only as a set write with a 1 there, down only as a clear write with a 1 there. -/
def Obligations.LatchBitMovesOnlyBySetOrClear : Prop :=
  ∀ (s t : State) (i : Instr) (p : Fin 32), exec i s = .next t → t.out[p] ≠ s.out[p] →
    (t.out[p] = true ∧ ∃ d : Word, i = .wrGpset0 d ∧ d[p] = true) ∨
    (t.out[p] = false ∧ ∃ d : Word, i = .wrGpclr0 d ∧ d[p] = true)

/-- A function-select word reads back as written with bits 31:30 as 0, all eight codes of every field as written. -/
def Obligations.WrittenFieldsReadBackWithoutReservedBits : Prop :=
  ∀ (s : State) (n : Fin 4) (d : Word), s.life = .mapped → ∃ (t : State) (v : Word),
    andThen (exec (fselWrite n d) s) (exec (fselRead n)) = .next t ∧ t.reply = some v ∧
    v = d &&& 0x3FFFFFFF ∧ t.fsel[n] = v ∧ (∀ k : Fin 10, fselFieldOf v k = fselFieldOf d k) ∧
    v.extractLsb' 30 2 = 0#2

/-- Sets merge, clears merge, the later of a set and a clear wins, and those on disjoint masks commute. -/
def Obligations.SetAndClearLaws : Prop :=
  ∀ (s : State) (a b : Word), s.life = .mapped →
    andThen (exec (.wrGpset0 a) s) (exec (.wrGpset0 b)) = exec (.wrGpset0 (a ||| b)) s ∧
    andThen (exec (.wrGpset0 b) s) (exec (.wrGpset0 a)) = exec (.wrGpset0 (a ||| b)) s ∧
    andThen (exec (.wrGpclr0 a) s) (exec (.wrGpclr0 b)) = exec (.wrGpclr0 (a ||| b)) s ∧
    andThen (exec (.wrGpclr0 b) s) (exec (.wrGpclr0 a)) = exec (.wrGpclr0 (a ||| b)) s ∧
    andThen (exec (.wrGpset0 a) s) (exec (.wrGpclr0 b)) =
      .next { s with out := (s.out ||| a) &&& ~~~b, reply := none } ∧
    andThen (exec (.wrGpclr0 b) s) (exec (.wrGpset0 a)) =
      .next { s with out := (s.out &&& ~~~b) ||| a, reply := none } ∧
    (a &&& b = 0 → andThen (exec (.wrGpset0 a) s) (exec (.wrGpclr0 b)) =
      andThen (exec (.wrGpclr0 b) s) (exec (.wrGpset0 a)))

/-- A run of bus transactions, one after the other. -/
def runTransactions : List Instr → State → Outcome
  | [], s => .next s
  | i :: rest, s => andThen (exec i s) (runTransactions rest)

/-- A set or clear write that has a 0 at pin `p`. -/
def SparesPin (p : Fin 32) (i : Instr) : Prop :=
  ∃ d : Word, d[p] = false ∧ (i = .wrGpset0 d ∨ i = .wrGpclr0 d)

/-- Any run of set and clear writes whose masks spare a pin completes and leaves its latch bit and its mode. -/
def Obligations.PlainWritesLeaveOtherPinsAlone : Prop :=
  ∀ (p : Fin 32) (l : List Instr) (s : State), s.life = .mapped → (∀ i ∈ l, SparesPin p i) →
    ∃ t, runTransactions l s = .next t ∧ t.out[p] = s.out[p] ∧ t.fsel = s.fsel ∧ t.life = .mapped

/-- A plain write of bit(p) to GPSET0 or GPCLR0 sets or clears the latch bit of pin p and of no other pin. -/
def Obligations.PlainWriteOfOneBitDrivesOnePin : Prop :=
  ∀ (s : State) (p : Fin 32) (d : Bool), s.life = .mapped → ∃ t,
    exec (if d then .wrGpset0 (pinBit p) else .wrGpclr0 (pinBit p)) s = .next t ∧
    (∀ q : Fin 32, t.out[q] = if q = p then d else s.out[q]) ∧ t.fsel = s.fsel ∧
    (s.params.woRead &&& ~~~pinBit p = 0 →
      t.out = if d then s.out ||| (s.params.woRead ||| pinBit p)
        else s.out &&& ~~~(s.params.woRead ||| pinBit p))

/-! The lifecycle (R150, R151, R207, R208). -/

/-- map from Unmapped either maps and returns the handle or returns MapFailure; a second map is refused. -/
def Obligations.MapSucceedsOrFailsAndTouchesNoRegister : Prop :=
  ∀ (s : State) (c base : Nat) (rest : List Input), s.inputs = .call c (.map base) :: rest → Idle c s →
    (s.life ≠ .unmapped → step s = .refused .mapTwice) ∧
    (s.life = .unmapped → base = s.params.gpioBase → ∃ (l : Life) (r : Result),
      step s = .next { s with inputs := rest, reply := none, returned := some (c, r), life := l,
                              hostDraws := s.hostDraws + 1 } ∧
      (l = .mapped ∧ r = .handle base ∨ l = .unmapped ∧ r = .err .mapFailure))

/-- unmap from Mapped with nothing in flight gives Destroyed and leaves every register; otherwise it is refused. -/
def Obligations.UnmapReleasesOnceAndTouchesNoRegister : Prop :=
  ∀ (s : State) (c : Nat) (rest : List Input), s.inputs = .call c .unmap :: rest → Idle c s →
    (s.life ≠ .mapped → step s = .refused .unmapNotMapped) ∧
    (s.life = .mapped → someInFlight s = true → step s = .refused .unmapInFlight) ∧
    (s.life = .mapped → someInFlight s = false →
      step s = .next { s with inputs := rest, reply := none, returned := some (c, .done),
                              life := .destroyed })

/-- In flight, as the model reads R151 (log entry 12): exactly from an operation's first transaction until its last is performed. -/
def Obligations.InFlightIsBetweenFirstAndLastTransaction : Prop :=
  (∀ (p : Fin 32) (d : Bool) (o : DriveOrigin) (t : Word),
    activityInFlight (.driving p d o .readFsel) = false ∧
    activityInFlight (.driving p d o (.writeFsel t)) = true ∧
    activityInFlight (.driving p d o .readMask) = true ∧
    activityInFlight (.driving p d o (.writeMask t)) = true ∧
    activityInFlight (.driving p d o .finish) = false) ∧
  (∀ (w : WordOffset) (u : ReadUse) (v : Word),
    activityInFlight (.reading w u) = false ∧ activityInFlight (.writing w v) = false)

/-- start maps and publishes, or leaves Unmapped with MapFailure, or unmaps again and aborts; no register is touched. -/
def Obligations.StartMapsOrAbortsAndTouchesNoRegister : Prop :=
  ∀ (s : State) (c : Nat) (rest : List Input), s.inputs = .call c .start :: rest → Idle c s →
    (s.life ≠ .unmapped → step s = .refused .mapTwice) ∧
    (s.life = .unmapped → FlightOnlyMapped s → ∃ (l : Life) (r : Result) (k : Nat),
      step s = .next { s with inputs := rest, reply := none, returned := some (c, r), life := l,
                              hostDraws := s.hostDraws + k } ∧
      (l = .mapped ∧ r = .done ∨ l = .unmapped ∧ r = .err .mapFailure ∨
        l = .destroyed ∧ r ≠ .done))

/-- stop unmaps when nothing is in flight and leaves every register as it was. -/
def Obligations.StopUnmapsAndTouchesNoRegister : Prop :=
  ∀ (s : State) (c : Nat) (rest : List Input), s.inputs = .call c .stop :: rest → Idle c s →
    (s.life = .mapped → someInFlight s = false →
      step s = .next { s with inputs := rest, reply := none, returned := some (c, .done),
                              life := .destroyed }) ∧
    (s.life = .mapped → someInFlight s = true → step s = .refused .unmapInFlight) ∧
    (s.life ≠ .mapped → step s = .refused .unmapNotMapped) ∧
    (s.life = .destroyed → ∀ (a : Nat) (op : Op) (t : State), beginOp a op s ≠ .next t)

/-! The Register Map operations (R152 to R154). -/

/-- read_word checks the lifetime and the bound, then returns what RD32 of the word gives, refusals included. -/
def Obligations.ReadWordIsOneReadOfTheWord : Prop :=
  ∀ (s : State) (c : Nat), Idle c s →
    (∀ (offset : Nat) (rest : List Input), s.inputs = .call c (.readWord offset) :: rest →
      (s.life ≠ .mapped → step s = .refused .useOutsideLifetime) ∧
      (s.life = .mapped → 1024 ≤ offset →
        step s = .next { s with inputs := rest, reply := none, returned := some (c, .err .outOfRange) })) ∧
    (∀ woff : WordOffset, s.life = .mapped →
      runSteps 2 (s.withInputs (aloneInputs c (.readWord woff.toNat) 1)) =
        andThen (exec (decodeRecord (rd32 woff)) { s with inputs := [], reply := none, returned := none })
          fun t => .next { t with returned := some (c, .word t.replyWord) })

/-- write_word checks the lifetime and the bound, then performs WR32 of the word, refusals included. -/
def Obligations.WriteWordIsOneWriteOfTheWord : Prop :=
  ∀ (s : State) (c : Nat) (v : Word), Idle c s →
    (∀ (offset : Nat) (rest : List Input), s.inputs = .call c (.writeWord offset v) :: rest →
      (s.life ≠ .mapped → step s = .refused .useOutsideLifetime) ∧
      (s.life = .mapped → 1024 ≤ offset →
        step s = .next { s with inputs := rest, reply := none, returned := some (c, .err .outOfRange) })) ∧
    (∀ woff : WordOffset, s.life = .mapped →
      runSteps 2 (s.withInputs (aloneInputs c (.writeWord woff.toNat v) 1)) =
        andThen (exec (decodeRecord (wr32 woff v)) { s with inputs := [], reply := none, returned := none })
          fun t => .next { t with returned := some (c, .done) })

/-- get_bit refuses a bit index of 32 or more, and otherwise returns that bit of the one word it reads. -/
def Obligations.GetBitReturnsTheBitOfTheWord : Prop :=
  ∀ (s : State) (c : Nat), Idle c s →
    (∀ (offset k : Nat) (rest : List Input), s.inputs = .call c (.getBit offset k) :: rest →
      (32 ≤ k → step s = .refused .shiftByWidth) ∧
      (k < 32 → s.life ≠ .mapped → step s = .refused .useOutsideLifetime) ∧
      (k < 32 → s.life = .mapped → 1024 ≤ offset →
        step s = .next { s with inputs := rest, reply := none, returned := some (c, .err .outOfRange) })) ∧
    (∀ (woff : WordOffset) (k : Fin 32), s.life = .mapped →
      runSteps 2 (s.withInputs (aloneInputs c (.getBit woff.toNat k) 1)) =
        andThen (exec (decodeRecord (rd32 woff)) { s with inputs := [], reply := none, returned := none })
          fun t => .next { t with returned := some (c, .bit t.replyWord[k]) })

/-! The Pin Controller (R172 to R184). -/

/-- read_level returns the latch bit of an output pin, a fresh draw for another pin, InvalidPin above 31. -/
def Obligations.ReadLevelReturnsLatchOrDraw : Prop :=
  ∀ (s : State) (c : Nat), Idle c s →
    (∀ (pin : Nat) (rest : List Input), s.inputs = .call c (.readLevel pin) :: rest →
      (s.life ≠ .mapped → step s = .refused .useOutsideLifetime) ∧
      (s.life = .mapped → 32 ≤ pin →
        step s = .next { s with inputs := rest, reply := none, returned := some (c, .err .invalidPin) })) ∧
    (∀ p : Fin 32, s.life = .mapped → ∃ (v : Word) (b : Bool),
      runSteps 2 (s.withInputs (aloneInputs c (.readLevel p) 1)) =
        .next { s with inputs := [], reply := some v, returned := some (c, .bit b),
                       padDraws := s.padDraws + 1 } ∧
      b = if fselField s (fieldPin p) = 0b001#3 then s.out[p] else (Config.padDraw s.padDraws)[p])

/-- drive_pin checks lifetime, then pin, then value, and an error changes nothing. -/
def Obligations.DrivePinChecksBeforeAnyTransaction : Prop :=
  ∀ (s : State) (c pin desired : Nat) (rest : List Input),
    s.inputs = .call c (.drivePin pin desired) :: rest → Idle c s →
    (s.life ≠ .mapped → step s = .refused .useOutsideLifetime) ∧
    (s.life = .mapped → 32 ≤ pin →
      step s = .next { s with inputs := rest, reply := none, returned := some (c, .err .invalidPin) }) ∧
    (s.life = .mapped → pin < 32 → 2 ≤ desired →
      step s = .next { s with inputs := rest, reply := none, returned := some (c, .err .invalidValue) })

/-- The four transactions of drive_pin, and its VIEW update and return, a move of their own by the model's reading (log entry 20). -/
def Obligations.DrivePinStagesAreItsTransactions : Prop :=
  ∀ (s : State) (c : Nat) (p : Fin 32) (d : Bool) (o : DriveOrigin) (i : Fin 4), i.val = fselIndex p →
    s.life = .mapped →
    (findCall c s.calls = some (.driving p d o .readFsel) →
      resumeCall c s = .next { s with
        reply := some s.fsel[i],
        calls := putCall c (.driving p d o (.writeFsel s.fsel[i])) s.calls }) ∧
    (∀ t, findCall c s.calls = some (.driving p d o (.writeFsel t)) →
      resumeCall c s = .next { s with
        reply := none,
        fsel := s.fsel.set i (((t &&& fselClearMask p) ||| fselOutputBit p) &&& 0x3FFFFFFF),
        calls := putCall c (.driving p d o .readMask) s.calls }) ∧
    (findCall c s.calls = some (.driving p d o .readMask) →
      resumeCall c s = .next { s with
        reply := some s.params.woRead,
        calls := putCall c (.driving p d o (.writeMask s.params.woRead)) s.calls }) ∧
    (∀ m, findCall c s.calls = some (.driving p d o (.writeMask m)) →
      resumeCall c s = .next { s with
        reply := none,
        out := if d then s.out ||| (m ||| pinBit p) else s.out &&& ~~~(m ||| pinBit p),
        calls := putCall c (.driving p d o .finish) s.calls }) ∧
    (findCall c s.calls = some (.driving p d o .finish) →
      resumeCall c s = .next { s with
        view := s.view.set p (if d then .outputHigh else .outputLow),
        returned := some (c, match o with | .direct => .ok | .command n => .count n),
        calls := dropCall c s.calls }) ∧
    (ReservedBitsZero s → ∀ w, w = (s.fsel[i] &&& fselClearMask p) ||| fselOutputBit p →
      w &&& 0x3FFFFFFF = w ∧
      ∀ q : Fin 40, fselField { s with fsel := s.fsel.set i w } q =
        if q = fieldPin p then 0b001#3 else fselField s q)

/-- The whole drive_pin of one caller: one field set to 0b001, latch bits of WO_READ | bit(pin) moved, Ok. -/
def Obligations.DrivePinNetEffectForOneCaller : Prop :=
  ∀ (s : State) (c : Nat) (p : Fin 32) (d : Bool) (i : Fin 4), i.val = fselIndex p →
    s.life = .mapped → Idle c s → ReservedBitsZero s →
    runSteps 6 (s.withInputs (aloneInputs c (.drivePin p d.toNat) 5)) =
      .next { s with
        fsel := s.fsel.set i ((s.fsel[i] &&& fselClearMask p) ||| fselOutputBit p)
        out := if d then s.out ||| s.params.woRead ||| pinBit p
          else s.out &&& ~~~(s.params.woRead ||| pinBit p)
        view := s.view.set p (if d then .outputHigh else .outputLow)
        inputs := []
        reply := none
        returned := some (c, .ok) }

/-- After drive_pin, read_level returns the value asked for; other pins' fields stay, other latch bits exactly when WO_READ is harmless. -/
def Obligations.DrivePinReadsBackAndIsIsolated : Prop :=
  ∀ (s : State) (c : Nat) (p : Fin 32) (d : Bool), s.life = .mapped → Idle c s →
    (∃ t, runSteps 8 (s.withInputs (aloneInputs c (.drivePin p d.toNat) 5 ++ aloneInputs c (.readLevel p) 1)) =
      .next t ∧ t.returned = some (c, .bit d)) ∧
    (∃ t, runSteps 6 (s.withInputs (aloneInputs c (.drivePin p d.toNat) 5)) = .next t ∧
      ∀ q : Fin 40, q ≠ fieldPin p → fselField t q = fselField s q) ∧
    ((∀ out : Word, ∃ t,
        runSteps 6 ({ s with out := out }.withInputs (aloneInputs c (.drivePin p d.toNat) 5)) = .next t ∧
        ∀ q : Fin 32, q ≠ p → t.out[q] = out[q]) ↔
      s.params.woRead &&& ~~~pinBit p = 0)

/-- The losing order of R184: A reads the word, B reads the word, A writes, B writes; then A and B end their calls. -/
def lostUpdateInputs (a b : Nat) (p q : Fin 32) : List Input :=
  [.call a (.drivePin p 1), .call b (.drivePin q 1), .resume a, .resume b, .resume a, .resume b] ++
  [.resume a, .resume a, .resume a] ++ [.resume b, .resume b, .resume b]

/-- Two drive_pin calls on two pins of one word, in the losing order, lose the first caller's field. -/
def Obligations.TwoCallersCanLoseAFieldUpdate : Prop :=
  ∀ (s : State) (a b : Nat) (p q : Fin 32), a ≠ b → p ≠ q → fselIndex p = fselIndex q →
    s.life = .mapped → Idle a s → Idle b s → ∃ t,
    runSteps 12 (s.withInputs (lostUpdateInputs a b p q)) = .next t ∧
    fselField t (fieldPin p) = fselField s (fieldPin p) ∧ fselField t (fieldPin q) = 0b001#3 ∧
    t.out[p] = true ∧ t.out[q] = true ∧
    t.view[p] = .outputHigh ∧ t.view[q] = .outputHigh

/-- Two calls on one pin with different values: B's clear write is performed first and A's set write last, but B ends
last (R280). -/
def samePinInputs (a b : Nat) (p : Fin 32) : List Input :=
  [.call a (.drivePin p 1), .call b (.drivePin p 0), .resume a, .resume a, .resume a] ++
  [.resume b, .resume b, .resume b, .resume b] ++ [.resume a, .resume a, .resume b]

/-- Two calls on one pin: the latch keeps the last write, VIEW the caller that ended last, and they can disagree. -/
def Obligations.ViewCanDisagreeWithTheLatch : Prop :=
  ∀ (s : State) (a b : Nat) (p : Fin 32), a ≠ b → s.life = .mapped → Idle a s → Idle b s → ∃ t,
    runSteps 12 (s.withInputs (samePinInputs a b p)) = .next t ∧
    fselField t (fieldPin p) = 0b001#3 ∧ t.out[p] = true ∧ t.view[p] = .outputLow

/-- Between making the pin an output and writing its level, another caller reads the old latch bit. -/
def Obligations.OldLatchBitIsDrivenBeforeTheLevelIsWritten : Prop :=
  ∀ (s : State) (a b : Nat) (p : Fin 32) (d : Bool), a ≠ b → s.life = .mapped → Idle a s → Idle b s → ∃ t,
    runSteps 5 (s.withInputs [.call a (.drivePin p d.toNat), .resume a, .resume a,
      .call b (.readLevel p), .resume b]) = .next t ∧
    t.returned = some (b, .bit s.out[p]) ∧ t.out = s.out

/-! The command surface (R200 to R206). -/

/-- status_read returns the 21 bytes of the fixed line with the level of pin 4 as the digit, and changes no register. -/
def Obligations.StatusLineReportsPin4 : Prop :=
  ∀ (s : State) (c : Nat), s.life = .mapped → Idle c s → ∃ (v : Word) (b : Bool) (line : List Byte),
    runSteps 2 (s.withInputs (aloneInputs c .statusRead 1)) =
      .next { s with inputs := [], reply := some v, returned := some (c, .bytes line),
                     padDraws := s.padDraws + 1 } ∧
    line = [0x48, 0x65, 0x6C, 0x6C, 0x6F, 0x2C, 0x20, 0x57, 0x6F, 0x72, 0x6C, 0x64, 0x21, 0x0A,
      0x50, 0x69, 0x6E, 0x34, 0x3A, 0x20, if b then 0x31 else 0x30] ∧ line.length = 21 ∧
    b = if fselField s 4 = 0b001#3 then s.out[4] else (Config.padDraw s.padDraws)[4]

/-- The buffer holds the first 256 input bytes and zeros after them; the parser reads up to the first zero byte. -/
def Obligations.CommandBufferIsZeroedFilledAndCut : Prop :=
  ∀ input : List Byte,
    (∀ i : Fin 256, (fillBuffer input)[i] = input.getD i 0) ∧
    bufferText (fillBuffer input) = (input.take 256).takeWhile (· != 0) ∧
    (∀ other : List Byte, other.take 256 = input.take 256 → fillBuffer other = fillBuffer input) ∧
    ∀ (s : State) (c : Nat) (b : Vector Byte 256),
      runOp c (.commandWrite input) { s with cmdBuf := b } = runOp c (.commandWrite input) s

/-- The optional sign before an integer, as bytes, and whether it is a minus (R203). -/
def signBytes : Option Bool → List Byte
  | none => []
  | some false => [0x2B]
  | some true => [0x2D]

/-- The integer a sign and a run of digits spell. -/
def signedValue (sign : Option Bool) (digits : List Byte) : Int :=
  if sign = some true then -(decimalValue digits : Int) else decimalValue digits

/-- No digit follows white space and this optional sign: the text goes on with no digit, and where there is no sign, with
no further white space and no sign either (R203). -/
def NoInteger (sign : Option Bool) (rest : List Byte) : Prop :=
  ∀ b, rest.head? = some b →
    isDigit b = false ∧ (sign = none → isWs b = false ∧ b ≠ 0x2B ∧ b ≠ 0x2D)

/-- A text of the grammar parses as its two integers; a first or second integer that is missing is a failure, one above 2^31 - 1 an overflow (log entry 17). -/
def Obligations.GrammarReadsTwoIntegersAndAComma : Prop :=
  (∀ (w1 w2 d1 d2 rest : List Byte) (g1 g2 : Option Bool),
    (∀ b ∈ w1 ++ w2, isWs b = true) → (∀ b ∈ d1 ++ d2, isDigit b = true) → d1 ≠ [] → d2 ≠ [] →
    (∀ b, rest.head? = some b → isDigit b = false) → decimalValue d1 ≤ 2147483647 →
    parseCommand (w1 ++ signBytes g1 ++ d1 ++ 0x2C :: (w2 ++ signBytes g2 ++ d2 ++ rest)) =
      if decimalValue d2 > 2147483647 then .overflow else .pair (signedValue g1 d1) (signedValue g2 d2)) ∧
  (∀ (w1 d1 rest : List Byte) (g1 : Option Bool),
    (∀ b ∈ w1, isWs b = true) → (∀ b ∈ d1, isDigit b = true) →
    (∀ b, rest.head? = some b → isDigit b = false) → decimalValue d1 > 2147483647 →
    parseCommand (w1 ++ signBytes g1 ++ d1 ++ rest) = .overflow) ∧
  (∀ (w1 d1 rest : List Byte) (g1 : Option Bool),
    (∀ b ∈ w1, isWs b = true) → (∀ b ∈ d1, isDigit b = true) → d1 ≠ [] → decimalValue d1 ≤ 2147483647 →
    (∀ b, rest.head? = some b → isDigit b = false ∧ b ≠ 0x2C) →
    parseCommand (w1 ++ signBytes g1 ++ d1 ++ rest) = .failure) ∧
  (∀ (w1 w2 d1 rest : List Byte) (g1 g2 : Option Bool),
    (∀ b ∈ w1 ++ w2, isWs b = true) → (∀ b ∈ d1, isDigit b = true) → d1 ≠ [] → decimalValue d1 ≤ 2147483647 →
    NoInteger g2 rest →
    parseCommand (w1 ++ signBytes g1 ++ d1 ++ 0x2C :: (w2 ++ signBytes g2 ++ rest)) = .failure) ∧
  (∀ (w1 rest : List Byte) (g1 : Option Bool), (∀ b ∈ w1, isWs b = true) → NoInteger g1 rest →
    parseCommand (w1 ++ signBytes g1 ++ rest) = .failure)

/-- A parsed pair drives when 0 <= pin <= 21 and the value is 0 or 1; any other pair, negative ones too, is a RangeViolation. -/
def Obligations.RangeCheckAcceptsPins0To21AndBits : Prop :=
  ∀ (text : List Byte) (pin value : Int), parseCommand text = .pair pin value →
    (0 ≤ pin ∧ pin ≤ 21 ∧ (value = 0 ∨ value = 1) →
      commandVerdict text = .drive pin.toNat value.toNat) ∧
    (¬(0 ≤ pin ∧ pin ≤ 21 ∧ (value = 0 ∨ value = 1)) →
      commandVerdict text = .recovered .rangeViolation ∧
      ∀ (s : State) (c : Nat) (input : List Byte), s.life = .mapped → Idle c s →
        bufferText (fillBuffer input) = text →
        beginOp c (.commandWrite input) s =
          .next { s with cmdBuf := fillBuffer input, returned := some (c, .count input.length) })

/-- The document's own command texts parse and are judged as it says. -/
def Obligations.SourceCommandsGetTheirVerdicts : Prop :=
  commandVerdict [0x34, 0x2C, 0x31] = .drive 4 1 ∧
  commandVerdict [0x34, 0x2C, 0x30] = .drive 4 0 ∧
  commandVerdict [0x34, 0x2C, 0x32] = .recovered .rangeViolation ∧
  commandVerdict [0x32, 0x32, 0x2C, 0x31] = .recovered .rangeViolation ∧
  commandVerdict [0x2D, 0x31, 0x2C, 0x31] = .recovered .rangeViolation ∧
  commandVerdict [0x6E, 0x6F, 0x74, 0x61, 0x6E, 0x75, 0x6D, 0x62, 0x65, 0x72] = .recovered .parseFailure ∧
  commandVerdict [0x34, 0x2C] = .recovered .parseFailure ∧
  commandVerdict [] = .recovered .parseFailure ∧
  commandVerdict [0x20, 0x34, 0x2C, 0x20, 0x31] = .drive 4 1 ∧
  commandVerdict [0x30, 0x34, 0x2C, 0x30, 0x31] = .drive 4 1 ∧
  commandVerdict [0x34, 0x2C, 0x31, 0x78, 0x79, 0x7A] = .drive 4 1 ∧
  commandVerdict [0x34, 0x20, 0x2C, 0x31] = .recovered .parseFailure ∧
  commandVerdict [0x39, 0x39, 0x39, 0x39, 0x39, 0x39, 0x39, 0x39, 0x39, 0x39, 0x39, 0x2C, 0x31] = .refuse

/-- A command that does not parse or is out of range changes only the buffer and returns the full input length. -/
def Obligations.BadCommandsMutateNoRegister : Prop :=
  ∀ (s : State) (c : Nat) (input : List Byte), s.life = .mapped → Idle c s →
    (∀ (e : OpError) (rest : List Input), s.inputs = .call c (.commandWrite input) :: rest →
      commandVerdict (bufferText (fillBuffer input)) = .recovered e →
      step s = .next { s with inputs := rest, cmdBuf := fillBuffer input, reply := none,
                              returned := some (c, .count input.length) }) ∧
    (∀ rest : List Input, s.inputs = .call c (.commandWrite input) :: rest →
      commandVerdict (bufferText (fillBuffer input)) = .refuse →
      step s = .refused .integerTokenOverflow) ∧
    (∀ pin desired : Nat, commandVerdict (bufferText (fillBuffer input)) = .drive pin desired →
      ∃ t, runSteps 6 (s.withInputs (aloneInputs c (.commandWrite input) 5)) = .next t ∧
        t.returned = some (c, .count input.length))

/-- A command in range acts as drive_pin of its pin and value, and returns the full input length. -/
def Obligations.GoodCommandsDriveTheirPin : Prop :=
  (∀ (text : List Byte) (pin desired : Nat), commandVerdict text = .drive pin desired →
    pin ≤ 21 ∧ desired ≤ 1) ∧
  (∀ (s : State) (c : Nat) (input : List Byte) (p : Fin 32) (d : Bool) (i : Fin 4), i.val = fselIndex p →
    s.life = .mapped → Idle c s → ReservedBitsZero s →
    commandVerdict (bufferText (fillBuffer input)) = .drive p d.toNat →
    runSteps 6 (s.withInputs (aloneInputs c (.commandWrite input) 5)) =
      .next { s with
        fsel := s.fsel.set i ((s.fsel[i] &&& fselClearMask p) ||| fselOutputBit p)
        out := if d then s.out ||| s.params.woRead ||| pinBit p
          else s.out &&& ~~~(s.params.woRead ||| pinBit p)
        view := s.view.set p (if d then .outputHigh else .outputLow)
        cmdBuf := fillBuffer input
        inputs := []
        reply := none
        returned := some (c, .count input.length) })

/-- status_read and command_write outside the lifetime are refused before the buffer is touched (the model's reading, log entry 19). -/
def Obligations.SurfaceNeedsTheMapping : Prop :=
  ∀ (s : State) (c : Nat) (rest : List Input), s.life ≠ .mapped → Idle c s →
    (s.inputs = .call c .statusRead :: rest → step s = .refused .useOutsideLifetime) ∧
    (∀ input : List Byte, s.inputs = .call c (.commandWrite input) :: rest →
      step s = .refused .useOutsideLifetime)

/-- The model's choices for a caller out of turn: a second call is refused, a move with nothing in progress does nothing. -/
def Obligations.CallersRunOneOperationAtATime : Prop :=
  (∀ (s : State) (c : Nat) (op : Op) (a : Activity) (rest : List Input),
    s.inputs = .call c op :: rest → findCall c s.calls = some a → step s = .refused .callerBusy) ∧
  (∀ (s : State) (c : Nat) (rest : List Input), s.inputs = .resume c :: rest → Idle c s →
    step s = .next { s with inputs := rest, reply := none, returned := none })

/-! Reset and the whole machine (R44, R260). -/

/-- At reset the function-select words and the latch are the open parameters, bits 31:30 are 0, Unmapped, every VIEW Unconfigured. -/
def Obligations.ResetStateForAllOpenParameters : Prop :=
  ∀ (params : Params) (resetFsel : Vector Word 4) (resetOut : Word),
    let s := State.resetWith params resetFsel resetOut
    (∀ n : Fin 4, s.fsel[n].extractLsb' 0 30 = resetFsel[n].extractLsb' 0 30 ∧
      s.fsel[n].extractLsb' 30 2 = 0#2) ∧
    s.out = resetOut ∧ s.life = .unmapped ∧ (∀ p : Fin 32, s.view[p] = .unconfigured) ∧
    s.params = params ∧ step s = .next s

/-- The reset state meets the invariant, for every value of the open parameters. -/
def Obligations.InvariantHoldsAtReset : Prop :=
  ∀ (params : Params) (resetFsel : Vector Word 4) (resetOut : Word),
    Inv (State.resetWith params resetFsel resetOut)

/-- Every step keeps the invariant: reserved bits 0, nothing in flight outside the lifetime, pending masks are WO_READ. -/
def Obligations.EveryStepKeepsTheInvariant : Prop :=
  ∀ s t : State, Inv s → step s = .next t → Inv t

/-- No step changes WO_READ or GPIO_BASE: they are parameters, not state. -/
def Obligations.NoStepWritesTheParameters : Prop :=
  ∀ s t : State, step s = .next t → t.params = s.params

/-- LIFE moves only from Unmapped to Mapped (or, by a one-step start that aborts, log entries 9 and 18, Destroyed) and from Mapped to Destroyed, which is final. -/
def Obligations.LifecycleMovesForwardOnly : Prop :=
  ∀ s t : State, step s = .next t → t.life ≠ s.life →
    ∃ (c : Nat) (op : Op), s.inputs.head? = some (.call c op) ∧
      ((s.life = .unmapped ∧ t.life = .mapped ∧ ((∃ base, op = .map base) ∨ op = .start)) ∨
       (s.life = .unmapped ∧ t.life = .destroyed ∧ op = .start) ∨
       (s.life = .mapped ∧ t.life = .destroyed ∧ (op = .unmap ∨ op = .stop)))

/-- No step changes a function-select word or the latch while the block is not mapped. -/
def Obligations.RegistersStandStillOutsideTheLifetime : Prop :=
  ∀ s t : State, step s = .next t → s.life ≠ .mapped →
    t.fsel = s.fsel ∧ t.out = s.out ∧ t.padDraws = s.padDraws

/-- VIEW[p] changes only when a drive_pin on p ends, to the value it asked for, and never returns to Unconfigured. -/
def Obligations.ViewMovesOnlyAtTheEndOfADrivePin : Prop :=
  ∀ (s t : State) (p : Fin 32), step s = .next t → t.view[p] ≠ s.view[p] →
    ∃ (c : Nat) (d : Bool) (o : DriveOrigin), s.inputs.head? = some (.resume c) ∧
      findCall c s.calls = some (.driving p d o .finish) ∧
      t.view[p] = if d then .outputHigh else .outputLow

/-- A step leaves the function-select words and the latch as the one bus transaction its input stands for leaves them; with none, unchanged. -/
def Obligations.RegistersMoveOnlyByOneTransaction : Prop :=
  (∀ s t : State, step s = .next t →
    match servedTransaction s with
    | some i => ∃ u : State,
        exec i { s with inputs := s.inputs.tail, reply := none, returned := none } = .next u ∧
        t.fsel = u.fsel ∧ t.out = u.out ∧ t.reply = u.reply ∧ t.padDraws = u.padDraws
    | none => t.fsel = s.fsel ∧ t.out = s.out ∧ t.padDraws = s.padDraws) ∧
  (∀ (s t : State) (c : Nat) (op : Op) (rest : List Input), s.inputs = .call c op :: rest → step s = .next t →
    t.fsel = s.fsel ∧ t.out = s.out)

/-- Outside the lifetime an operation in progress is refused at its next transaction, a drive_pin with none left still returns (log entries 20, 21). -/
def Obligations.OvertakenOperationsReturnOrAreRefused : Prop :=
  (∀ (s : State) (c : Nat) (rest : List Input) (a : Activity) (i : Instr), s.inputs = .resume c :: rest →
    s.life ≠ .mapped → findCall c s.calls = some a → nextTransaction a = some i →
    step s = .refused .useOutsideLifetime) ∧
  (∀ (s : State) (c : Nat) (rest : List Input) (p : Fin 32) (d : Bool) (o : DriveOrigin),
    s.inputs = .resume c :: rest → findCall c s.calls = some (.driving p d o .finish) →
    step s = .next { s with
      inputs := rest
      reply := none
      view := s.view.set p (if d then .outputHigh else .outputLow)
      returned := some (c, match o with | .direct => .ok | .command n => .count n)
      calls := dropCall c s.calls })
end

