-- ==== Sys2Proof/Laws/Calls.lean ====
section
/-! SUPPORT. The list of operations in progress: what putting and dropping one does to a look-up, and that both keep the
canonical form. -/

namespace Sys2Proof.Machine

theorem findCall_putCall_self (c : Nat) (a : Activity) (l : List (Nat × Activity)) :
    findCall c (putCall c a l) = some a := by
  induction l with
  | nil => simp [putCall, findCall]
  | cons h t ih =>
    obtain ⟨k, b⟩ := h
    simp only [putCall]
    split
    · simp [findCall]
    · split
      · simp [findCall]
      · have : k ≠ c := by omega
        simpa [findCall, this] using ih

theorem findCall_putCall_other {c d : Nat} (h : d ≠ c) (a : Activity) (l : List (Nat × Activity)) :
    findCall d (putCall c a l) = findCall d l := by
  induction l with
  | nil => simp [putCall, findCall, Ne.symm h]
  | cons x t ih =>
    obtain ⟨k, b⟩ := x
    simp only [putCall]
    split
    · simp [findCall, Ne.symm h]
    · split
      · next hk => subst hk; simp [findCall, Ne.symm h]
      · simp [findCall, ih]

theorem findCall_dropCall_self (c : Nat) (l : List (Nat × Activity)) : findCall c (dropCall c l) = none := by
  induction l with
  | nil => rfl
  | cons x t ih =>
    obtain ⟨k, b⟩ := x
    by_cases hk : k = c <;> simp_all [dropCall, findCall]

theorem findCall_dropCall_other {c d : Nat} (h : d ≠ c) (l : List (Nat × Activity)) :
    findCall d (dropCall c l) = findCall d l := by
  induction l with
  | nil => rfl
  | cons x t ih =>
    obtain ⟨k, b⟩ := x
    by_cases hk : k = c
    · subst hk; simpa [dropCall, findCall, Ne.symm h] using ih
    · by_cases hd : k = d <;> simp_all [dropCall, findCall]

/-- A caller without an operation that begins one and ends it leaves the list as it was. -/
theorem dropCall_putCall {c : Nat} {l : List (Nat × Activity)} (h : findCall c l = none) (a : Activity) :
    dropCall c (putCall c a l) = l := by
  induction l with
  | nil => simp [putCall, dropCall]
  | cons x t ih =>
    obtain ⟨k, b⟩ := x
    have hk : k ≠ c := by intro hk; simp [findCall, hk] at h
    have ht : findCall c t = none := by simpa [findCall, hk] using h
    have drop : dropCall c ((k, b) :: t) = (k, b) :: t := by
      have : dropCall c t = t := by
        clear ih h
        induction t with
        | nil => rfl
        | cons y u ihu =>
          obtain ⟨m, e⟩ := y
          have hm : m ≠ c := by intro hm; simp [findCall, hm] at ht
          have hu : findCall c u = none := by simpa [findCall, hm] using ht
          simpa [dropCall, hm] using ihu hu
      simpa [dropCall, hk] using this
    simp only [putCall]
    split
    · simpa [dropCall] using drop
    · split
      · next h' => exact absurd h'.symm hk
      · simpa [dropCall, hk] using ih ht

/-- A second activity of the same caller replaces the first. -/
theorem putCall_putCall {c : Nat} {l : List (Nat × Activity)} (h : findCall c l = none) (a b : Activity) :
    putCall c b (putCall c a l) = putCall c b l := by
  induction l with
  | nil => simp [putCall]
  | cons x t ih =>
    obtain ⟨k, e⟩ := x
    have hk : k ≠ c := by intro hk; simp [findCall, hk] at h
    have ht : findCall c t = none := by simpa [findCall, hk] using h
    by_cases hlt : c < k
    · simp [putCall, hlt]
    · simp [putCall, hlt, Ne.symm hk, ih ht]

/-- What stands in the list after a put is the new activity or was there before. -/
theorem mem_putCall {c d : Nat} {a b : Activity} {l : List (Nat × Activity)} (h : (d, b) ∈ putCall c a l) :
    (d = c ∧ b = a) ∨ (d, b) ∈ l := by
  induction l with
  | nil => simpa [putCall] using h
  | cons x t ih =>
    obtain ⟨k, e⟩ := x
    simp only [putCall] at h
    split at h
    · simpa using h
    · split at h
      · rcases List.mem_cons.1 h with h | h
        · exact .inl (by simpa using h)
        · exact .inr (List.mem_cons_of_mem _ h)
      · rcases List.mem_cons.1 h with h | h
        · exact .inr (by simp [h])
        · exact (ih h).imp id (List.mem_cons_of_mem _)

theorem mem_dropCall {c : Nat} {p : Nat × Activity} {l : List (Nat × Activity)} (h : p ∈ dropCall c l) : p ∈ l :=
  (List.mem_filter.1 h).1

theorem mem_of_findCall {c : Nat} {a : Activity} {l : List (Nat × Activity)} (h : findCall c l = some a) :
    (c, a) ∈ l := by
  induction l with
  | nil => simp [findCall] at h
  | cons x t ih =>
    obtain ⟨k, b⟩ := x
    by_cases hk : k = c
    · simp_all [findCall]
    · exact List.mem_cons_of_mem _ (ih (by simpa [findCall, hk] using h))

theorem dropCall_sorted {l : List (Nat × Activity)} (c : Nat) (h : l.Pairwise fun a b => a.1 < b.1) :
    (dropCall c l).Pairwise fun a b => a.1 < b.1 :=
  h.filter _

theorem putCall_sorted {l : List (Nat × Activity)} (c : Nat) (a : Activity) (h : l.Pairwise fun a b => a.1 < b.1) :
    (putCall c a l).Pairwise fun a b => a.1 < b.1 := by
  induction l with
  | nil => simp [putCall]
  | cons x t ih =>
    obtain ⟨k, b⟩ := x
    obtain ⟨hk, ht⟩ := List.pairwise_cons.1 h
    simp only [putCall]
    split
    · next hlt =>
      refine List.pairwise_cons.2 ⟨?_, h⟩
      intro y hy
      rcases List.mem_cons.1 hy with rfl | hy
      · exact hlt
      · exact Nat.lt_trans hlt (hk y hy)
    · split
      · next heq => subst heq; exact List.pairwise_cons.2 ⟨hk, ht⟩
      · refine List.pairwise_cons.2 ⟨?_, ih ht⟩
        rintro ⟨d, e⟩ hy
        rcases mem_putCall hy with ⟨rfl, -⟩ | hy
        · show k < d
          omega
        · exact hk _ hy

end Sys2Proof.Machine
end

