-- ==== Sys2Proof/Laws/Operands.lean ====
section
/-! SUPPORT. The operand forms bit by bit: the masks of the pin-index decoder, the word `drive_pin` writes back, the level
word, and the mask of the reserved bits. -/

namespace Sys2Proof.Machine

/-- The mask of bits 31:30 keeps exactly the bits below 30 (R32). -/
theorem reservedMask_getLsbD : ∀ k : Fin 32, (0x3FFFFFFF#32).getLsbD k = decide (k.val < 30) := by decide

/-- The clear mask has zeros exactly in the three bits of the pin's field (R86). -/
theorem fselClearMask_getLsbD :
    ∀ p k : Fin 32, (fselClearMask p).getLsbD k = !decide (fselShift p ≤ k ∧ k.val < fselShift p + 3) := by decide

/-- The output bit is the lowest bit of the pin's field (R86). -/
theorem fselOutputBit_getLsbD : ∀ p k : Fin 32, (fselOutputBit p).getLsbD k = decide (k.val = fselShift p) := by decide

/-- `bit(p)` has one bit, at `p` (R87). -/
theorem pinBit_getElem : ∀ p q : Fin 32, (pinBit p)[q] = decide (q = p) := by decide

theorem fselIndex_lt (p : Fin 32) : fselIndex p < 4 := by simp only [fselIndex]; omega

theorem fselShift_le (p : Fin 32) : fselShift p ≤ 27 := by simp only [fselShift, fselBitpos]; omega

/-- The word written back, bit by bit: `0b001` in the pin's field, the word read elsewhere (R174). -/
theorem configureOutput_getLsbD (p : Fin 32) (t : Word) (k : Nat) (hk : k < 32) :
    (configureOutput p t).getLsbD k =
      if fselShift p ≤ k ∧ k < fselShift p + 3 then decide (k = fselShift p) else t.getLsbD k := by
  have h1 := fselClearMask_getLsbD p ⟨k, hk⟩
  have h2 := fselOutputBit_getLsbD p ⟨k, hk⟩
  simp only at h1 h2
  simp only [configureOutput, BitVec.getLsbD_or, BitVec.getLsbD_and, h1, h2]
  by_cases h : fselShift p ≤ k ∧ k < fselShift p + 3
  · simp [h]
  · simp [h, show k ≠ fselShift p by omega]

theorem drivesPin_iff (s : State) (p : Fin 32) : drivesPin s p = true ↔ fselField s (fieldPin p) = 0b001#3 := by
  unfold drivesPin pinMode modeOf
  split
  · simp_all
  · split <;> simp_all

/-- The level word, bit by bit (R122). -/
theorem levelWord_getElem (s : State) (pad : Word) (p : Fin 32) :
    (levelWord s pad)[p] = if fselField s (fieldPin p) = 0b001#3 then s.out[p] else pad[p] := by
  simp only [levelWord, Fin.getElem_fin, BitVec.getElem_ofFnLE, drivesPin_iff]

end Sys2Proof.Machine
end

