-- ==== Sys2Proof/Laws/State.lean ====
section
/-! SUPPORT. One lemma per field per update of the state, each true by definition, so that no proof unfolds an update. -/

namespace Sys2Proof.Machine

variable (s : State)

@[simp] theorem answer_fsel (v : Word) : (s.answer v).fsel = s.fsel := rfl
@[simp] theorem answer_out (v : Word) : (s.answer v).out = s.out := rfl
@[simp] theorem answer_life (v : Word) : (s.answer v).life = s.life := rfl
@[simp] theorem answer_cmdBuf (v : Word) : (s.answer v).cmdBuf = s.cmdBuf := rfl
@[simp] theorem answer_view (v : Word) : (s.answer v).view = s.view := rfl
@[simp] theorem answer_params (v : Word) : (s.answer v).params = s.params := rfl
@[simp] theorem answer_reply (v : Word) : (s.answer v).reply = some v := rfl
@[simp] theorem answer_returned (v : Word) : (s.answer v).returned = s.returned := rfl
@[simp] theorem answer_calls (v : Word) : (s.answer v).calls = s.calls := rfl
@[simp] theorem answer_inputs (v : Word) : (s.answer v).inputs = s.inputs := rfl
@[simp] theorem answer_padDraws (v : Word) : (s.answer v).padDraws = s.padDraws := rfl
@[simp] theorem answer_hostDraws (v : Word) : (s.answer v).hostDraws = s.hostDraws := rfl

@[simp] theorem answerNothing_fsel : (s.answerNothing).fsel = s.fsel := rfl
@[simp] theorem answerNothing_out : (s.answerNothing).out = s.out := rfl
@[simp] theorem answerNothing_life : (s.answerNothing).life = s.life := rfl
@[simp] theorem answerNothing_cmdBuf : (s.answerNothing).cmdBuf = s.cmdBuf := rfl
@[simp] theorem answerNothing_view : (s.answerNothing).view = s.view := rfl
@[simp] theorem answerNothing_params : (s.answerNothing).params = s.params := rfl
@[simp] theorem answerNothing_reply : (s.answerNothing).reply = none := rfl
@[simp] theorem answerNothing_returned : (s.answerNothing).returned = s.returned := rfl
@[simp] theorem answerNothing_calls : (s.answerNothing).calls = s.calls := rfl
@[simp] theorem answerNothing_inputs : (s.answerNothing).inputs = s.inputs := rfl
@[simp] theorem answerNothing_padDraws : (s.answerNothing).padDraws = s.padDraws := rfl
@[simp] theorem answerNothing_hostDraws : (s.answerNothing).hostDraws = s.hostDraws := rfl

@[simp] theorem setFsel_fsel (n : Fin 4) (d : Word) : (s.setFsel n d).fsel = s.fsel.set n (d &&& 0x3FFFFFFF#32) := rfl
@[simp] theorem setFsel_out (n : Fin 4) (d : Word) : (s.setFsel n d).out = s.out := rfl
@[simp] theorem setFsel_life (n : Fin 4) (d : Word) : (s.setFsel n d).life = s.life := rfl
@[simp] theorem setFsel_cmdBuf (n : Fin 4) (d : Word) : (s.setFsel n d).cmdBuf = s.cmdBuf := rfl
@[simp] theorem setFsel_view (n : Fin 4) (d : Word) : (s.setFsel n d).view = s.view := rfl
@[simp] theorem setFsel_params (n : Fin 4) (d : Word) : (s.setFsel n d).params = s.params := rfl
@[simp] theorem setFsel_reply (n : Fin 4) (d : Word) : (s.setFsel n d).reply = s.reply := rfl
@[simp] theorem setFsel_returned (n : Fin 4) (d : Word) : (s.setFsel n d).returned = s.returned := rfl
@[simp] theorem setFsel_calls (n : Fin 4) (d : Word) : (s.setFsel n d).calls = s.calls := rfl
@[simp] theorem setFsel_inputs (n : Fin 4) (d : Word) : (s.setFsel n d).inputs = s.inputs := rfl
@[simp] theorem setFsel_padDraws (n : Fin 4) (d : Word) : (s.setFsel n d).padDraws = s.padDraws := rfl
@[simp] theorem setFsel_hostDraws (n : Fin 4) (d : Word) : (s.setFsel n d).hostDraws = s.hostDraws := rfl

@[simp] theorem setOut_fsel (v : Word) : (s.setOut v).fsel = s.fsel := rfl
@[simp] theorem setOut_out (v : Word) : (s.setOut v).out = v := rfl
@[simp] theorem setOut_life (v : Word) : (s.setOut v).life = s.life := rfl
@[simp] theorem setOut_cmdBuf (v : Word) : (s.setOut v).cmdBuf = s.cmdBuf := rfl
@[simp] theorem setOut_view (v : Word) : (s.setOut v).view = s.view := rfl
@[simp] theorem setOut_params (v : Word) : (s.setOut v).params = s.params := rfl
@[simp] theorem setOut_reply (v : Word) : (s.setOut v).reply = s.reply := rfl
@[simp] theorem setOut_returned (v : Word) : (s.setOut v).returned = s.returned := rfl
@[simp] theorem setOut_calls (v : Word) : (s.setOut v).calls = s.calls := rfl
@[simp] theorem setOut_inputs (v : Word) : (s.setOut v).inputs = s.inputs := rfl
@[simp] theorem setOut_padDraws (v : Word) : (s.setOut v).padDraws = s.padDraws := rfl
@[simp] theorem setOut_hostDraws (v : Word) : (s.setOut v).hostDraws = s.hostDraws := rfl

@[simp] theorem setLife_fsel (l : Life) : (s.setLife l).fsel = s.fsel := rfl
@[simp] theorem setLife_out (l : Life) : (s.setLife l).out = s.out := rfl
@[simp] theorem setLife_life (l : Life) : (s.setLife l).life = l := rfl
@[simp] theorem setLife_cmdBuf (l : Life) : (s.setLife l).cmdBuf = s.cmdBuf := rfl
@[simp] theorem setLife_view (l : Life) : (s.setLife l).view = s.view := rfl
@[simp] theorem setLife_params (l : Life) : (s.setLife l).params = s.params := rfl
@[simp] theorem setLife_reply (l : Life) : (s.setLife l).reply = s.reply := rfl
@[simp] theorem setLife_returned (l : Life) : (s.setLife l).returned = s.returned := rfl
@[simp] theorem setLife_calls (l : Life) : (s.setLife l).calls = s.calls := rfl
@[simp] theorem setLife_inputs (l : Life) : (s.setLife l).inputs = s.inputs := rfl
@[simp] theorem setLife_padDraws (l : Life) : (s.setLife l).padDraws = s.padDraws := rfl
@[simp] theorem setLife_hostDraws (l : Life) : (s.setLife l).hostDraws = s.hostDraws := rfl

@[simp] theorem setCmdBuf_fsel (b : Vector Byte 256) : (s.setCmdBuf b).fsel = s.fsel := rfl
@[simp] theorem setCmdBuf_out (b : Vector Byte 256) : (s.setCmdBuf b).out = s.out := rfl
@[simp] theorem setCmdBuf_life (b : Vector Byte 256) : (s.setCmdBuf b).life = s.life := rfl
@[simp] theorem setCmdBuf_cmdBuf (b : Vector Byte 256) : (s.setCmdBuf b).cmdBuf = b := rfl
@[simp] theorem setCmdBuf_view (b : Vector Byte 256) : (s.setCmdBuf b).view = s.view := rfl
@[simp] theorem setCmdBuf_params (b : Vector Byte 256) : (s.setCmdBuf b).params = s.params := rfl
@[simp] theorem setCmdBuf_reply (b : Vector Byte 256) : (s.setCmdBuf b).reply = s.reply := rfl
@[simp] theorem setCmdBuf_returned (b : Vector Byte 256) : (s.setCmdBuf b).returned = s.returned := rfl
@[simp] theorem setCmdBuf_calls (b : Vector Byte 256) : (s.setCmdBuf b).calls = s.calls := rfl
@[simp] theorem setCmdBuf_inputs (b : Vector Byte 256) : (s.setCmdBuf b).inputs = s.inputs := rfl
@[simp] theorem setCmdBuf_padDraws (b : Vector Byte 256) : (s.setCmdBuf b).padDraws = s.padDraws := rfl
@[simp] theorem setCmdBuf_hostDraws (b : Vector Byte 256) : (s.setCmdBuf b).hostDraws = s.hostDraws := rfl

@[simp] theorem setView_fsel (p : Fin 32) (v : PinView) : (s.setView p v).fsel = s.fsel := rfl
@[simp] theorem setView_out (p : Fin 32) (v : PinView) : (s.setView p v).out = s.out := rfl
@[simp] theorem setView_life (p : Fin 32) (v : PinView) : (s.setView p v).life = s.life := rfl
@[simp] theorem setView_cmdBuf (p : Fin 32) (v : PinView) : (s.setView p v).cmdBuf = s.cmdBuf := rfl
@[simp] theorem setView_view (p : Fin 32) (v : PinView) : (s.setView p v).view = s.view.set p v := rfl
@[simp] theorem setView_params (p : Fin 32) (v : PinView) : (s.setView p v).params = s.params := rfl
@[simp] theorem setView_reply (p : Fin 32) (v : PinView) : (s.setView p v).reply = s.reply := rfl
@[simp] theorem setView_returned (p : Fin 32) (v : PinView) : (s.setView p v).returned = s.returned := rfl
@[simp] theorem setView_calls (p : Fin 32) (v : PinView) : (s.setView p v).calls = s.calls := rfl
@[simp] theorem setView_inputs (p : Fin 32) (v : PinView) : (s.setView p v).inputs = s.inputs := rfl
@[simp] theorem setView_padDraws (p : Fin 32) (v : PinView) : (s.setView p v).padDraws = s.padDraws := rfl
@[simp] theorem setView_hostDraws (p : Fin 32) (v : PinView) : (s.setView p v).hostDraws = s.hostDraws := rfl

@[simp] theorem setCalls_fsel (l : List (Nat × Activity)) : (s.setCalls l).fsel = s.fsel := rfl
@[simp] theorem setCalls_out (l : List (Nat × Activity)) : (s.setCalls l).out = s.out := rfl
@[simp] theorem setCalls_life (l : List (Nat × Activity)) : (s.setCalls l).life = s.life := rfl
@[simp] theorem setCalls_cmdBuf (l : List (Nat × Activity)) : (s.setCalls l).cmdBuf = s.cmdBuf := rfl
@[simp] theorem setCalls_view (l : List (Nat × Activity)) : (s.setCalls l).view = s.view := rfl
@[simp] theorem setCalls_params (l : List (Nat × Activity)) : (s.setCalls l).params = s.params := rfl
@[simp] theorem setCalls_reply (l : List (Nat × Activity)) : (s.setCalls l).reply = s.reply := rfl
@[simp] theorem setCalls_returned (l : List (Nat × Activity)) : (s.setCalls l).returned = s.returned := rfl
@[simp] theorem setCalls_calls (l : List (Nat × Activity)) : (s.setCalls l).calls = l := rfl
@[simp] theorem setCalls_inputs (l : List (Nat × Activity)) : (s.setCalls l).inputs = s.inputs := rfl
@[simp] theorem setCalls_padDraws (l : List (Nat × Activity)) : (s.setCalls l).padDraws = s.padDraws := rfl
@[simp] theorem setCalls_hostDraws (l : List (Nat × Activity)) : (s.setCalls l).hostDraws = s.hostDraws := rfl

@[simp] theorem setReturned_fsel (r : Option (Nat × Result)) : (s.setReturned r).fsel = s.fsel := rfl
@[simp] theorem setReturned_out (r : Option (Nat × Result)) : (s.setReturned r).out = s.out := rfl
@[simp] theorem setReturned_life (r : Option (Nat × Result)) : (s.setReturned r).life = s.life := rfl
@[simp] theorem setReturned_cmdBuf (r : Option (Nat × Result)) : (s.setReturned r).cmdBuf = s.cmdBuf := rfl
@[simp] theorem setReturned_view (r : Option (Nat × Result)) : (s.setReturned r).view = s.view := rfl
@[simp] theorem setReturned_params (r : Option (Nat × Result)) : (s.setReturned r).params = s.params := rfl
@[simp] theorem setReturned_reply (r : Option (Nat × Result)) : (s.setReturned r).reply = s.reply := rfl
@[simp] theorem setReturned_returned (r : Option (Nat × Result)) : (s.setReturned r).returned = r := rfl
@[simp] theorem setReturned_calls (r : Option (Nat × Result)) : (s.setReturned r).calls = s.calls := rfl
@[simp] theorem setReturned_inputs (r : Option (Nat × Result)) : (s.setReturned r).inputs = s.inputs := rfl
@[simp] theorem setReturned_padDraws (r : Option (Nat × Result)) : (s.setReturned r).padDraws = s.padDraws := rfl
@[simp] theorem setReturned_hostDraws (r : Option (Nat × Result)) : (s.setReturned r).hostDraws = s.hostDraws := rfl

@[simp] theorem countPadDraw_fsel : (s.countPadDraw).fsel = s.fsel := rfl
@[simp] theorem countPadDraw_out : (s.countPadDraw).out = s.out := rfl
@[simp] theorem countPadDraw_life : (s.countPadDraw).life = s.life := rfl
@[simp] theorem countPadDraw_cmdBuf : (s.countPadDraw).cmdBuf = s.cmdBuf := rfl
@[simp] theorem countPadDraw_view : (s.countPadDraw).view = s.view := rfl
@[simp] theorem countPadDraw_params : (s.countPadDraw).params = s.params := rfl
@[simp] theorem countPadDraw_reply : (s.countPadDraw).reply = s.reply := rfl
@[simp] theorem countPadDraw_returned : (s.countPadDraw).returned = s.returned := rfl
@[simp] theorem countPadDraw_calls : (s.countPadDraw).calls = s.calls := rfl
@[simp] theorem countPadDraw_inputs : (s.countPadDraw).inputs = s.inputs := rfl
@[simp] theorem countPadDraw_padDraws : (s.countPadDraw).padDraws = s.padDraws + 1 := rfl
@[simp] theorem countPadDraw_hostDraws : (s.countPadDraw).hostDraws = s.hostDraws := rfl

@[simp] theorem countHostDraw_fsel : (s.countHostDraw).fsel = s.fsel := rfl
@[simp] theorem countHostDraw_out : (s.countHostDraw).out = s.out := rfl
@[simp] theorem countHostDraw_life : (s.countHostDraw).life = s.life := rfl
@[simp] theorem countHostDraw_cmdBuf : (s.countHostDraw).cmdBuf = s.cmdBuf := rfl
@[simp] theorem countHostDraw_view : (s.countHostDraw).view = s.view := rfl
@[simp] theorem countHostDraw_params : (s.countHostDraw).params = s.params := rfl
@[simp] theorem countHostDraw_reply : (s.countHostDraw).reply = s.reply := rfl
@[simp] theorem countHostDraw_returned : (s.countHostDraw).returned = s.returned := rfl
@[simp] theorem countHostDraw_calls : (s.countHostDraw).calls = s.calls := rfl
@[simp] theorem countHostDraw_inputs : (s.countHostDraw).inputs = s.inputs := rfl
@[simp] theorem countHostDraw_padDraws : (s.countHostDraw).padDraws = s.padDraws := rfl
@[simp] theorem countHostDraw_hostDraws : (s.countHostDraw).hostDraws = s.hostDraws + 1 := rfl

@[simp] theorem accept_fsel (l : List Input) : (s.accept l).fsel = s.fsel := rfl
@[simp] theorem accept_out (l : List Input) : (s.accept l).out = s.out := rfl
@[simp] theorem accept_life (l : List Input) : (s.accept l).life = s.life := rfl
@[simp] theorem accept_cmdBuf (l : List Input) : (s.accept l).cmdBuf = s.cmdBuf := rfl
@[simp] theorem accept_view (l : List Input) : (s.accept l).view = s.view := rfl
@[simp] theorem accept_params (l : List Input) : (s.accept l).params = s.params := rfl
@[simp] theorem accept_reply (l : List Input) : (s.accept l).reply = none := rfl
@[simp] theorem accept_returned (l : List Input) : (s.accept l).returned = none := rfl
@[simp] theorem accept_calls (l : List Input) : (s.accept l).calls = s.calls := rfl
@[simp] theorem accept_inputs (l : List Input) : (s.accept l).inputs = l := rfl
@[simp] theorem accept_padDraws (l : List Input) : (s.accept l).padDraws = s.padDraws := rfl
@[simp] theorem accept_hostDraws (l : List Input) : (s.accept l).hostDraws = s.hostDraws := rfl

@[simp] theorem withInputs_fsel (l : List Input) : (s.withInputs l).fsel = s.fsel := rfl
@[simp] theorem withInputs_out (l : List Input) : (s.withInputs l).out = s.out := rfl
@[simp] theorem withInputs_life (l : List Input) : (s.withInputs l).life = s.life := rfl
@[simp] theorem withInputs_cmdBuf (l : List Input) : (s.withInputs l).cmdBuf = s.cmdBuf := rfl
@[simp] theorem withInputs_view (l : List Input) : (s.withInputs l).view = s.view := rfl
@[simp] theorem withInputs_params (l : List Input) : (s.withInputs l).params = s.params := rfl
@[simp] theorem withInputs_reply (l : List Input) : (s.withInputs l).reply = s.reply := rfl
@[simp] theorem withInputs_returned (l : List Input) : (s.withInputs l).returned = s.returned := rfl
@[simp] theorem withInputs_calls (l : List Input) : (s.withInputs l).calls = s.calls := rfl
@[simp] theorem withInputs_inputs (l : List Input) : (s.withInputs l).inputs = l := rfl
@[simp] theorem withInputs_padDraws (l : List Input) : (s.withInputs l).padDraws = s.padDraws := rfl
@[simp] theorem withInputs_hostDraws (l : List Input) : (s.withInputs l).hostDraws = s.hostDraws := rfl

end Sys2Proof.Machine
end

