-- ==== Sys2Proof/Laws/Ops.lean ====
section
/-! SUPPORT. What each shared operation can do, said once: the register accesses, a bus transaction, the ends of an
operation. -/

namespace Sys2Proof.Machine

@[simp] theorem andThen_next (s : State) (k : State → Outcome) : andThen (.next s) k = k s := rfl
@[simp] theorem andThen_refused (r : Refusal) (k : State → Outcome) : andThen (.refused r) k = .refused r := rfl

/-- Going on ends in a next state exactly when both parts do. -/
theorem andThen_eq_next {o : Outcome} {k : State → Outcome} {t : State} :
    andThen o k = .next t ↔ ∃ s, o = .next s ∧ k s = .next t := by
  cases o <;> simp [andThen]

@[simp] theorem whenMapped_mapped {s : State} (h : s.life = .mapped) (o : Outcome) : whenMapped s o = o := by
  simp [whenMapped, h]

@[simp] theorem whenMapped_outside {s : State} (h : s.life ≠ .mapped) (o : Outcome) :
    whenMapped s o = .refused .useOutsideLifetime := by
  simp [whenMapped, h]

theorem whenMapped_eq_next {s t : State} {o : Outcome} :
    whenMapped s o = .next t ↔ s.life = .mapped ∧ o = .next t := by
  unfold whenMapped; split <;> simp_all

/-- Everything a bus transaction can do to the state when it completes (R138). -/
inductive BusEffect (s t : State) : Prop where
  | answered (v : Word) (h : t = s.answer v)
  | sampled (h : t = s.countPadDraw.answer (levelWord s (Config.padDraw s.padDraws)))
  | wroteFsel (n : Fin 4) (d : Word) (h : t = (s.setFsel n d).answerNothing)
  | wroteOut (v : Word) (h : t = (s.setOut v).answerNothing)
  | dropped (h : t = s.answerNothing)

/-- A transaction that completes ran while the block was mapped, and did one of these five things. -/
theorem exec_next {i : Instr} {s t : State} (h : exec i s = .next t) : s.life = .mapped ∧ BusEffect s t := by
  cases i
  case rdGpfsel0 | rdGpfsel1 | rdGpfsel2 | rdGpfsel3 | rdGpset0 | rdGpclr0 =>
    obtain ⟨hm, h⟩ := whenMapped_eq_next.1 h
    exact ⟨hm, .answered _ (Host.Outcome.next.inj h).symm⟩
  case rdGplev0 =>
    obtain ⟨hm, h⟩ := whenMapped_eq_next.1 h
    exact ⟨hm, .sampled (Host.Outcome.next.inj h).symm⟩
  case wrGpfsel0 | wrGpfsel1 | wrGpfsel2 | wrGpfsel3 =>
    obtain ⟨hm, h⟩ := whenMapped_eq_next.1 h
    exact ⟨hm, .wroteFsel _ _ (Host.Outcome.next.inj h).symm⟩
  case wrGpset0 | wrGpclr0 =>
    obtain ⟨hm, h⟩ := whenMapped_eq_next.1 h
    exact ⟨hm, .wroteOut _ (Host.Outcome.next.inj h).symm⟩
  case wrGplev0 =>
    obtain ⟨hm, h⟩ := whenMapped_eq_next.1 h
    exact ⟨hm, .dropped (Host.Outcome.next.inj h).symm⟩
  all_goals
    obtain ⟨-, h⟩ := whenMapped_eq_next.1 h
    cases h

/-! A record put together from its parts gives its parts back (R80, R81). -/

theorem recordHeader_append (h : Header) (d : Word) : recordHeader (h ++ d) = h :=
  BitVec.extractLsb'_append_eq_left

theorem recordData_append (h : Header) (d : Word) : recordData (h ++ d) = d :=
  BitVec.extractLsb'_append_eq_right

theorem wr32_eq (woff : WordOffset) (v : Word) : wr32 woff v = ((1#1 ++ woff ++ 0#2 : Header) ++ v) := rfl

theorem decode_wr32_fsel0 (v : Word) : decodeRecord (wr32 0#10 v) = .wrGpfsel0 v := by
  simp [decodeRecord, wr32_eq, recordHeader_append, recordData_append]

theorem decode_wr32_fsel1 (v : Word) : decodeRecord (wr32 1#10 v) = .wrGpfsel1 v := by
  simp [decodeRecord, wr32_eq, recordHeader_append, recordData_append]

theorem decode_wr32_fsel2 (v : Word) : decodeRecord (wr32 2#10 v) = .wrGpfsel2 v := by
  simp [decodeRecord, wr32_eq, recordHeader_append, recordData_append]

theorem decode_wr32_fsel3 (v : Word) : decodeRecord (wr32 3#10 v) = .wrGpfsel3 v := by
  simp [decodeRecord, wr32_eq, recordHeader_append, recordData_append]

theorem decode_wr32_gpset0 (v : Word) : decodeRecord (wr32 gpset0Woff v) = .wrGpset0 v := by
  simp [decodeRecord, gpset0Woff, wr32_eq, recordHeader_append, recordData_append]

theorem decode_wr32_gpclr0 (v : Word) : decodeRecord (wr32 gpclr0Woff v) = .wrGpclr0 v := by
  simp [decodeRecord, gpclr0Woff, wr32_eq, recordHeader_append, recordData_append]

/-! The transactions the driver issues (R94). -/

/-- `RD32(n)` for a function-select register (R174). -/
theorem busRead_fsel (n : Fin 4) (s : State) : busRead (fselWoff n) s = readFsel n s := by
  fin_cases n <;> rfl

/-- `WR32(n, v)` for a function-select register (R174). -/
theorem busWrite_fsel (n : Fin 4) (v : Word) (s : State) : busWrite (fselWoff n) v s = writeFsel n v s := by
  fin_cases n
  · exact congrArg (exec · s) (decode_wr32_fsel0 v)
  · exact congrArg (exec · s) (decode_wr32_fsel1 v)
  · exact congrArg (exec · s) (decode_wr32_fsel2 v)
  · exact congrArg (exec · s) (decode_wr32_fsel3 v)

/-- `RD32(7)` and `RD32(10)` answer `WO_READ` (R175). -/
theorem busRead_mask (d : Bool) (s : State) : busRead (driveWoff d) s = readWriteOnly s := by
  cases d <;> rfl

/-- `WR32(7, v)` sets and `WR32(10, v)` clears (R175). -/
theorem busWrite_mask (d : Bool) (v : Word) (s : State) :
    busWrite (driveWoff d) v s = if d then setLatch v s else clearLatch v s := by
  cases d
  · exact congrArg (exec · s) (decode_wr32_gpclr0 v)
  · exact congrArg (exec · s) (decode_wr32_gpset0 v)

/-- `RD32(13)` reads the levels (R172). -/
theorem busRead_levels (s : State) : busRead gplev0Woff s = readLevels s := rfl

theorem beginRead_mapped {s : State} (h : s.life = .mapped) (c offset : Nat) (use : ReadUse) :
    beginRead c offset use s =
      if offset < blockWords then proceed c (.reading (BitVec.ofNat 10 offset) use) s
      else errorTo c .outOfRange s := by
  simp [beginRead, h]

theorem beginDrive_mapped {s : State} (h : s.life = .mapped) (c : Nat) (pin : Fin 32) (d : Bool)
    (o : DriveOrigin) :
    beginDrive c pin d.toNat o s = proceed c (.driving pin d o .readFsel) s := by
  cases d <;> simp [beginDrive, h, admittedPin]

end Sys2Proof.Machine
end

