-- ==== Sys2Proof/Laws/PerInstr.lean ====
section
/-! SUPPORT. The family BusFields: the record an instruction is encoded to has the header and the data the decode table
gives it (R80, R83), instruction by instruction. -/

namespace Sys2Proof.Laws.BusFields

/-- The encoding of `i` holds its header at bits 44:32, with `w` (header bit 12) telling a write, and its data at bits
31:0. -/
def Statement (i : Instr) : Prop :=
  recordHeader (encodeRecord i) = instrHeader i ∧ recordData (encodeRecord i) = instrData i ∧
    ((instrHeader i).getLsbD 12 = false → instrData i = 0#32)

theorem fields (i : Instr) (h : (instrHeader i).getLsbD 12 = false → instrData i = 0#32) : Statement i :=
  ⟨BitVec.extractLsb'_append_eq_left, BitVec.extractLsb'_append_eq_right, h⟩

/-- Twelve bits with a 1 before them have bit 12 set. -/
theorem writeBit (b : ByteOffset) : (1#1 ++ b).getLsbD 12 = true := by
  rw [BitVec.getLsbD_append]; rfl

/-- A word offset between a 1 and a lane of 0 has bit 12 set. -/
theorem writeBitWord (w : WordOffset) : (1#1 ++ w ++ 0#2).getLsbD 12 = true := by
  rw [BitVec.getLsbD_append, BitVec.getLsbD_append]; rfl

theorem rdGpfsel0 : Statement .rdGpfsel0 := fields _ fun _ => rfl
theorem wrGpfsel0 (data : Word) : Statement (.wrGpfsel0 data) := fields _ fun h => absurd h (by simp [instrHeader])
theorem rdGpfsel1 : Statement .rdGpfsel1 := fields _ fun _ => rfl
theorem wrGpfsel1 (data : Word) : Statement (.wrGpfsel1 data) := fields _ fun h => absurd h (by simp [instrHeader])
theorem rdGpfsel2 : Statement .rdGpfsel2 := fields _ fun _ => rfl
theorem wrGpfsel2 (data : Word) : Statement (.wrGpfsel2 data) := fields _ fun h => absurd h (by simp [instrHeader])
theorem rdGpfsel3 : Statement .rdGpfsel3 := fields _ fun _ => rfl
theorem wrGpfsel3 (data : Word) : Statement (.wrGpfsel3 data) := fields _ fun h => absurd h (by simp [instrHeader])
theorem rdGpset0 : Statement .rdGpset0 := fields _ fun _ => rfl
theorem wrGpset0 (data : Word) : Statement (.wrGpset0 data) := fields _ fun h => absurd h (by simp [instrHeader])
theorem rdGpclr0 : Statement .rdGpclr0 := fields _ fun _ => rfl
theorem wrGpclr0 (data : Word) : Statement (.wrGpclr0 data) := fields _ fun h => absurd h (by simp [instrHeader])
theorem rdGplev0 : Statement .rdGplev0 := fields _ fun _ => rfl
theorem wrGplev0 (data : Word) : Statement (.wrGplev0 data) := fields _ fun h => absurd h (by simp [instrHeader])
theorem rdGpfsel4 : Statement .rdGpfsel4 := fields _ fun _ => rfl
theorem wrGpfsel4 (data : Word) : Statement (.wrGpfsel4 data) := fields _ fun h => absurd h (by simp [instrHeader])
theorem rdGpfsel5 : Statement .rdGpfsel5 := fields _ fun _ => rfl
theorem wrGpfsel5 (data : Word) : Statement (.wrGpfsel5 data) := fields _ fun h => absurd h (by simp [instrHeader])
theorem rdGpset1 : Statement .rdGpset1 := fields _ fun _ => rfl
theorem wrGpset1 (data : Word) : Statement (.wrGpset1 data) := fields _ fun h => absurd h (by simp [instrHeader])
theorem rdGpclr1 : Statement .rdGpclr1 := fields _ fun _ => rfl
theorem wrGpclr1 (data : Word) : Statement (.wrGpclr1 data) := fields _ fun h => absurd h (by simp [instrHeader])
theorem rdGplev1 : Statement .rdGplev1 := fields _ fun _ => rfl
theorem wrGplev1 (data : Word) : Statement (.wrGplev1 data) := fields _ fun h => absurd h (by simp [instrHeader])
theorem rdUnnamed (woff : WordOffset) : Statement (.rdUnnamed woff) := fields _ fun _ => rfl
theorem wrUnnamed (woff : WordOffset) (data : Word) : Statement (.wrUnnamed woff data) :=
  fields _ fun h => absurd (h.symm.trans (writeBitWord woff)) (by decide)
theorem rdMisaligned (boff : ByteOffset) : Statement (.rdMisaligned boff) := fields _ fun _ => rfl
theorem wrMisaligned (boff : ByteOffset) (data : Word) : Statement (.wrMisaligned boff data) := fields _ fun h => absurd (h.symm.trans (writeBit _)) (by decide)

end Sys2Proof.Laws.BusFields
end

