-- ==== Sys2Proof/Laws/Records.lean ====
section
/-! SUPPORT. Records, their parts and their bytes (R80, R81). -/

namespace Sys2Proof.Machine

/-- A record is its header and its data. -/
theorem record_parts (r : Record) : recordHeader r ++ recordData r = r := by
  apply BitVec.eq_of_getLsbD_eq
  intro i hi
  show (recordHeader r ++ recordData r : BitVec (13 + 32)).getLsbD i = _
  rw [BitVec.getLsbD_append]
  simp only [recordHeader, recordData, BitVec.getLsbD_extractLsb']
  split <;> simp_all
  intro; omega

/-- The byte offset is the low twelve bits of the header. -/
theorem recordBoff_append (h : Header) (d : Word) : recordBoff (h ++ d) = h.extractLsb' 0 12 := by
  apply BitVec.eq_of_getLsbD_eq
  intro i hi
  show ((h ++ d : BitVec (13 + 32)).extractLsb' 32 12).getLsbD i = _
  simp only [BitVec.getLsbD_extractLsb', BitVec.getLsbD_append]
  simp

/-- The six bytes of a record hold it, whatever follows them. -/
theorem recordOfBytes_bytesOfRecord (r : Record) (rest : List Byte) :
    recordOfBytes (bytesOfRecord r ++ rest) = .ok (r, rest) := by
  simp only [bytesOfRecord, List.cons_append, List.nil_append, recordOfBytes]
  rw [if_pos]
  · congr 2
    apply BitVec.eq_of_getLsbD_eq
    intro i hi
    simp only [BitVec.getLsbD_append, BitVec.getLsbD_extractLsb', BitVec.getLsbD_setWidth]
    repeat' split
    all_goals simp_all
    all_goals try rw [← BitVec.getLsbD_eq_getElem]
    all_goals try (congr 1; omega)
    have e : 40 + (i - 8 - 8 - 8 - 8 - 8) = i := by omega
    have h1 : i - 8 - 8 - 8 - 8 - 8 < 5 := by omega
    have h2 : i - 8 - 8 - 8 - 8 - 8 < 8 := by omega
    simp [e, h1, h2]
  · apply BitVec.eq_of_getLsbD_eq
    intro i hi
    simp

end Sys2Proof.Machine
end

