-- ==== Sys2Proof/Laws/Step.lean ====
section
/-! SUPPORT. Everything a step can do, said once: a bus transaction, the beginning of an operation, a move of one. -/

namespace Sys2Proof.Machine

/-- A caller without an operation in progress is not in the list. -/
theorem dropCall_idle {c : Nat} {l : List (Nat × Activity)} (h : findCall c l = none) : dropCall c l = l := by
  induction l with
  | nil => rfl
  | cons y u ih =>
    obtain ⟨m, e⟩ := y
    have hm : m ≠ c := by intro hm; simp [findCall, hm] at h
    simpa [dropCall, hm] using ih (by simpa [findCall, hm] using h)

/-- The activities an operation can begin with: none of its transactions is performed yet. -/
def FreshActivity : Activity → Prop
  | .reading _ _ => True
  | .writing _ _ => True
  | .driving _ _ _ stage => stage = .readFsel

/-- The moves of `LIFE` an operation can make (R150, R151, R207, R208). -/
inductive LifeMove (op : Op) (u : State) : Life → Prop where
  | failed (h : u.life = .unmapped) : LifeMove op u .unmapped
  | mapped (h : u.life = .unmapped) (hop : (∃ base, op = .map base) ∨ op = .start) : LifeMove op u .mapped
  | aborted (h : u.life = .unmapped) (hop : op = .start) (hf : someInFlight u = false) : LifeMove op u .destroyed
  | released (h : u.life = .mapped) (hop : op = .unmap ∨ op = .stop) (hf : someInFlight u = false) :
      LifeMove op u .destroyed

/-- Everything the call of an operation can do to the state when it completes. -/
inductive OpEffect (c : Nat) (op : Op) (u t : State) : Prop where
  | returned (b : Vector Byte 256) (r : Result)
      (h : t = ((u.setCmdBuf b).setCalls (dropCall c u.calls)).setReturned (some (c, r)))
  | began (b : Vector Byte 256) (a : Activity) (hm : u.life = .mapped) (ha : FreshActivity a)
      (h : t = (u.setCmdBuf b).setCalls (putCall c a u.calls))
  | lifecycle (l : Life) (k : Nat) (r : Result) (hl : LifeMove op u l)
      (h : t = (({ u with life := l, hostDraws := u.hostDraws + k } : State).setCalls
        (dropCall c u.calls)).setReturned (some (c, r)))

theorem beginRead_effect {c offset : Nat} {use : ReadUse} {op : Op} {u t : State}
    (h : beginRead c offset use u = .next t) : OpEffect c op u t := by
  obtain ⟨hm, h⟩ := whenMapped_eq_next.1 h
  split at h
  · exact .began u.cmdBuf (.reading _ _) hm trivial (Host.Outcome.next.inj h).symm
  · exact .returned u.cmdBuf _ (Host.Outcome.next.inj h).symm

theorem beginDrive_effect {c pin desired : Nat} {o : DriveOrigin} {op : Op} {u t : State} {b : Vector Byte 256}
    (h : beginDrive c pin desired o (u.setCmdBuf b) = .next t) : OpEffect c op u t := by
  obtain ⟨hm, h⟩ := whenMapped_eq_next.1 h
  split at h
  · split at h
    · exact .began b (.driving _ _ _ .readFsel) hm rfl (Host.Outcome.next.inj h).symm
    · exact .returned b _ (Host.Outcome.next.inj h).symm
  · exact .returned b _ (Host.Outcome.next.inj h).symm

theorem opUnmap_effect {c : Nat} {op : Op} {u t : State} (hop : op = .unmap ∨ op = .stop)
    (h : opUnmap c u = .next t) : OpEffect c op u t := by
  obtain ⟨v, hv, h⟩ := andThen_eq_next.1 h
  unfold unmapBlock at hv
  split at hv
  · cases hv
  · next hl =>
    split at hv
    · cases hv
    · next hf =>
      cases hv
      exact .lifecycle .destroyed 0 _ (.released (by simpa using hl) hop (by simpa using hf))
        (Host.Outcome.next.inj h).symm

/-- The call of an operation that completes does one of these three things. -/
theorem runOp_effect {c : Nat} {op : Op} {u t : State} (h : runOp c op u = .next t) : OpEffect c op u t := by
  cases op with
  | map base =>
    simp only [runOp, opMap] at h
    split at h
    · cases h
    · next hl =>
      have hl : u.life = .unmapped := by simpa using hl
      split at h
      · cases h
      · split at h
        · next hs =>
          refine .lifecycle .mapped 1 (.handle base) (.mapped hl (.inl ⟨_, rfl⟩)) ?_
          simp only [tryMap, hs, if_true, returnTo] at h
          exact (Host.Outcome.next.inj h).symm
        · next hs =>
          refine .lifecycle .unmapped 1 (.err .mapFailure) (.failed hl) ?_
          simp only [tryMap, hs, errorTo, returnTo] at h
          rw [← hl]
          exact (Host.Outcome.next.inj h).symm
  | unmap => exact opUnmap_effect (.inl rfl) h
  | readWord offset => exact beginRead_effect h
  | writeWord offset value =>
    obtain ⟨hm, h⟩ := whenMapped_eq_next.1 h
    split at h
    · exact .began u.cmdBuf (.writing _ _) hm trivial (Host.Outcome.next.inj h).symm
    · exact .returned u.cmdBuf _ (Host.Outcome.next.inj h).symm
  | getBit wordOffset bitIndex =>
    simp only [runOp, opGetBit] at h
    split at h
    · exact beginRead_effect h
    · cases h
  | readLevel pin =>
    obtain ⟨-, h⟩ := whenMapped_eq_next.1 h
    split at h
    · exact beginRead_effect h
    · exact .returned u.cmdBuf _ (Host.Outcome.next.inj h).symm
  | drivePin pin desired => exact beginDrive_effect (b := u.cmdBuf) h
  | statusRead =>
    obtain ⟨-, h⟩ := whenMapped_eq_next.1 h
    exact beginRead_effect h
  | commandWrite input =>
    obtain ⟨-, h⟩ := whenMapped_eq_next.1 h
    split at h
    · cases h
    · exact .returned _ _ (Host.Outcome.next.inj h).symm
    · exact beginDrive_effect h
  | start =>
    simp only [runOp, opStart] at h
    split at h
    · cases h
    · next hl =>
      have hl : u.life = .unmapped := by simpa using hl
      split at h
      · next hs =>
        simp only [tryMap, hs, if_true] at h
        split at h
        · exact .lifecycle .mapped 2 _ (.mapped hl (.inr rfl)) (Host.Outcome.next.inj h).symm
        · obtain ⟨v, hv, h⟩ := andThen_eq_next.1 h
          unfold unmapBlock at hv
          split at hv
          · cases hv
          · split at hv
            · cases hv
            · next hf =>
              cases hv
              exact .lifecycle .destroyed 2 _ (.aborted hl rfl (by simpa [someInFlight] using hf))
                (Host.Outcome.next.inj h).symm
      · next hs =>
        refine .lifecycle .unmapped 1 (.err .mapFailure) (.failed hl) ?_
        simp only [tryMap, hs, errorTo, returnTo] at h
        rw [← hl]
        exact (Host.Outcome.next.inj h).symm
  | stop => exact opUnmap_effect (.inr rfl) h

/-- How the operation in progress goes on after the transaction that took `u` to `v`. -/
inductive AfterTransaction (c : Nat) (u v t : State) : Prop where
  | ended (r : Result) (h : t = (v.setCalls (dropCall c v.calls)).setReturned (some (c, r)))
  | wentOn (p : Fin 32) (d : Bool) (o : DriveOrigin) (stage : DriveStage)
      (hs : ∀ m, stage = .writeMask m → m = u.params.woRead)
      (h : t = v.setCalls (putCall c (.driving p d o stage) v.calls))

/-- Everything a move of a caller can do: nothing, the next bus transaction of its operation and what follows it, or the
end of a `drive_pin`. -/
theorem resumeCall_effect {c : Nat} {u t : State} (h : resumeCall c u = .next t) :
    (findCall c u.calls = none ∧ t = u) ∨
    (∃ (a : Activity) (i : Instr) (v : State), findCall c u.calls = some a ∧ nextTransaction a = some i ∧
      exec i u = .next v ∧ AfterTransaction c u v t) ∨
    (∃ (p : Fin 32) (d : Bool) (o : DriveOrigin), findCall c u.calls = some (.driving p d o .finish) ∧
      t = (((u.setView p (drivenView d)).setCalls (dropCall c u.calls)).setReturned (some (c, driveResult o)))) := by
  unfold resumeCall at h
  split at h
  · next hc => exact .inl ⟨hc, (Host.Outcome.next.inj h).symm⟩
  · next hc =>
    obtain ⟨v, hv, h⟩ := andThen_eq_next.1 h
    exact .inr (.inl ⟨_, _, v, hc, rfl, hv, .ended _ (Host.Outcome.next.inj h).symm⟩)
  · next hc =>
    obtain ⟨v, hv, h⟩ := andThen_eq_next.1 h
    exact .inr (.inl ⟨_, _, v, hc, rfl, hv, .ended _ (Host.Outcome.next.inj h).symm⟩)
  · next p d o stage hc =>
    cases stage with
    | finish => exact .inr (.inr ⟨p, d, o, hc, (Host.Outcome.next.inj h).symm⟩)
    | readMask =>
      obtain ⟨v, hv, h⟩ := andThen_eq_next.1 h
      refine .inr (.inl ⟨_, _, v, hc, rfl, hv, .wentOn p d o _ ?_ (Host.Outcome.next.inj h).symm⟩)
      intro m hm
      have hv' := hv
      rw [busRead_mask] at hv'
      obtain ⟨-, hv'⟩ := whenMapped_eq_next.1 hv'
      cases hv'
      cases hm
      rfl
    | readFsel | writeFsel | writeMask =>
      obtain ⟨v, hv, h⟩ := andThen_eq_next.1 h
      exact .inr (.inl ⟨_, _, v, hc, rfl, hv, .wentOn p d o _ (by intro m hm; cases hm)
        (Host.Outcome.next.inj h).symm⟩)

/-- A step serves its oldest input, or has none and keeps its state. -/
theorem step_eq_next {s t : State} :
    step s = .next t ↔ (s.inputs = [] ∧ t = s) ∨
      ∃ i rest, s.inputs = i :: rest ∧ serve i (s.accept rest) = .next t := by
  unfold step
  split
  · next h => simp [h, eq_comm]
  · next h => simp [h]

/-- Everything serving an input can do. -/
theorem serve_effect {i : Input} {u t : State} (h : serve i u = .next t) :
    (∃ r, (i = .bus r ∨ ∃ w a d, i = .access w a d ∧ recordOfAccess u.params w a d = some r) ∧
      exec (decodeRecord r) u = .next t) ∨
    (∃ c op, i = .call c op ∧ findCall c u.calls = none ∧ OpEffect c op u t) ∨
    (∃ c, i = .resume c ∧ resumeCall c u = .next t) := by
  cases i with
  | bus r => exact .inl ⟨r, .inl rfl, h⟩
  | access w a d =>
    simp only [serve] at h
    split at h
    · next r hr => exact .inl ⟨r, .inr ⟨w, a, d, rfl, hr⟩, h⟩
    · cases h
  | call c op =>
    simp only [serve, beginOp] at h
    split at h
    · cases h
    · next hc => exact .inr (.inl ⟨c, op, rfl, hc, runOp_effect h⟩)
  | resume c => exact .inr (.inr ⟨c, rfl, h⟩)

end Sys2Proof.Machine
end

