-- ==== Sys2Proof/Laws/Runs.lean ====
section
/-! SUPPORT. Runs of a few steps, one input at a time, and how a bus transaction passes over the operations in progress. -/

namespace Sys2Proof.Machine

/-- A run that starts with a call. -/
theorem runSteps_call (n c : Nat) (op : Op) {s : State} {l : List Input} (h : s.inputs = .call c op :: l) :
    runSteps (n + 1) s = andThen (beginOp c op (s.accept l)) (runSteps n) := by
  simp only [runSteps, step, h]; rfl

/-- A run that starts with a move of a caller. -/
theorem runSteps_resume (n c : Nat) {s : State} {l : List Input} (h : s.inputs = .resume c :: l) :
    runSteps (n + 1) s = andThen (resumeCall c (s.accept l)) (runSteps n) := by
  simp only [runSteps, step, h]; rfl

/-- A transaction neither reads nor writes the operations in progress. -/
theorem exec_setCalls (i : Instr) (s : State) (l : List (Nat × Activity)) :
    exec i (s.setCalls l) = andThen (exec i s) fun t => .next (t.setCalls l) := by
  by_cases hm : s.life = .mapped
  · have hm2 : (s.setCalls l).life = .mapped := hm
    cases i <;>
      (show whenMapped _ _ = andThen (whenMapped _ _) _; rw [whenMapped_mapped hm, whenMapped_mapped hm2]; rfl)
  · have hm2 : (s.setCalls l).life ≠ .mapped := hm
    cases i <;>
      (show whenMapped _ _ = andThen (whenMapped _ _) _; rw [whenMapped_outside hm, whenMapped_outside hm2]; rfl)

/-- A completed transaction leaves the block mapped, and the parameters, the views and the operations as they were. -/
theorem exec_keeps {i : Instr} {s t : State} (h : exec i s = .next t) :
    s.life = .mapped ∧ t.life = .mapped ∧ t.calls = s.calls ∧ t.params = s.params ∧ t.view = s.view := by
  obtain ⟨hm, e⟩ := exec_next h
  cases e <;> subst_vars <;> exact ⟨hm, hm, rfl, rfl, rfl⟩

end Sys2Proof.Machine
end

