-- ==== Sys2Proof/Machine/Flags.lean ====
section
/-! DEFINITION. Flags: the block has none ("No transaction sets or reads a status flag", R22), so this file defines
nothing. -/
end

