-- ==== Sys2Proof/Tests/Slice0.lean ====
section
/-! SUPPORT. Tests from the spec's own vectors (95_test_vectors.md), and for every obligation with hypotheses a concrete
state and operands that meet them. -/

open Sys2Proof Sys2Proof.Machine

namespace Sys2Proof.Tests

/-! Small states. -/

/-- The default reset with the block mapped, the start state of the vectors. -/
def mapped : State := { State.reset with life := .mapped }

/-- The mapped block with these function-select words and this latch. -/
def regs (w0 w1 w2 w3 out : Word) : State := { mapped with fsel := #v[w0, w1, w2, w3], out := out }

/-- The same with this `WO_READ`. -/
def withWoRead (s : State) (v : Word) : State := { s with params := { s.params with woRead := v } }

/-- The mapped block in which caller 1 has a `drive_pin` of pin 31 to 1 in progress. -/
def driving (stage : DriveStage) : State := { mapped with calls := [(1, .driving 31 true .direct stage)] }

/-- The state after unmapping. -/
def destroyed : State := { State.reset with life := .destroyed }

/-- What a vector tells of a next state: the function-select words, the latch, the word answered. -/
def seen : Outcome → Option (List Word × Word × Option Word)
  | .next t => some (t.fsel.toList, t.out, t.reply)
  | .fault _ => none
  | .refused _ => none

/-- What an operation returned. -/
def result : Outcome → Option (Nat × Result)
  | .next t => t.returned
  | .fault _ => none
  | .refused _ => none

/-- Why a run was refused. -/
def refusal : Outcome → Option Refusal
  | .next _ => none
  | .fault _ => none
  | .refused r => some r

/-- The view of a pin. -/
def viewOf (pin : Fin 32) : Outcome → Option PinView
  | .next t => some t.view[pin]
  | .fault _ => none
  | .refused _ => none

/-- The lifecycle state. -/
def lifeOf : Outcome → Option Life
  | .next t => some t.life
  | .fault _ => none
  | .refused _ => none

/-- One caller runs one operation to its end. -/
def alone (op : Op) (moves : Nat) (s : State) : Outcome := runSteps (moves + 1) (s.withInputs (aloneInputs 0 op moves))

/-! WellFormed: one ill-formed term for each check. -/

theorem test_named_word_is_no_unnamed_read : ¬(Instr.rdUnnamed 7).WellFormed := by decide
theorem test_named_word_is_no_unnamed_write : ¬(Instr.wrUnnamed 14 5).WellFormed := by decide
theorem test_aligned_offset_is_no_misaligned_read : ¬(Instr.rdMisaligned 0x01C).WellFormed := by decide
theorem test_aligned_offset_is_no_misaligned_write : ¬(Instr.wrMisaligned 0xFFC 5).WellFormed := by decide

/-! Decoding: words written out from the record layout of R80 (w at bit 44, boff at 43:32, data at 31:0) and the offsets of
R33 to R36 and R83, field by field, one for each constructor. -/

theorem test_decode_function_select_reads :
    decodeRecord 0b0_000000000000_00000000000000000000000000000000#45 = .rdGpfsel0 ∧
    decodeRecord 0b0_000000000100_00000000000000000000000000000000#45 = .rdGpfsel1 ∧
    decodeRecord 0b0_000000001000_00000000000000000000000000000000#45 = .rdGpfsel2 ∧
    decodeRecord 0b0_000000001100_00000000000000000000000000000000#45 = .rdGpfsel3 := by decide

theorem test_decode_function_select_writes :
    decodeRecord 0b1_000000000000_00000000000000000001000000000000#45 = .wrGpfsel0 0x00001000 ∧
    decodeRecord 0b1_000000000100_11000000000000000000000000000000#45 = .wrGpfsel1 0xC0000000 ∧
    decodeRecord 0b1_000000001000_00000000000000000000000000001000#45 = .wrGpfsel2 0x00000008 ∧
    decodeRecord 0b1_000000001100_11111111111111111111111111111111#45 = .wrGpfsel3 0xFFFFFFFF := by decide

theorem test_decode_set_clear_level :
    decodeRecord 0b0_000000011100_00000000000000000000000000000000#45 = .rdGpset0 ∧
    decodeRecord 0b1_000000011100_00000000000000000000000000010000#45 = .wrGpset0 0x00000010 ∧
    decodeRecord 0b0_000000101000_00000000000000000000000000000000#45 = .rdGpclr0 ∧
    decodeRecord 0b1_000000101000_10000000000000000000000000000000#45 = .wrGpclr0 0x80000000 ∧
    decodeRecord 0b0_000000110100_00000000000000000000000000000000#45 = .rdGplev0 ∧
    decodeRecord 0b1_000000110100_00010010001101000101011001111000#45 = .wrGplev0 0x12345678 := by decide

theorem test_decode_out_of_scope_reads :
    decodeRecord 0b0_000000010000_00000000000000000000000000000000#45 = .rdGpfsel4 ∧
    decodeRecord 0b0_000000010100_00000000000000000000000000000000#45 = .rdGpfsel5 ∧
    decodeRecord 0b0_000000100000_00000000000000000000000000000000#45 = .rdGpset1 ∧
    decodeRecord 0b0_000000101100_00000000000000000000000000000000#45 = .rdGpclr1 ∧
    decodeRecord 0b0_000000111000_00000000000000000000000000000000#45 = .rdGplev1 := by decide

theorem test_decode_out_of_scope_writes :
    decodeRecord 0b1_000000010000_00000000000000000000000000000010#45 = .wrGpfsel4 2 ∧
    decodeRecord 0b1_000000010100_00000000000000000000000000000001#45 = .wrGpfsel5 1 ∧
    decodeRecord 0b1_000000100000_00000000000000000000000000000001#45 = .wrGpset1 1 ∧
    decodeRecord 0b1_000000101100_00000000000000000000000000000000#45 = .wrGpclr1 0 ∧
    decodeRecord 0b1_000000111000_00000000000000000000000000000000#45 = .wrGplev1 0 := by decide

theorem test_decode_catch_all :
    decodeRecord 0b0_000000011000_00000000000000000000000000000000#45 = .rdUnnamed 6 ∧
    decodeRecord 0b1_111111111100_00000000000000000000000000000000#45 = .wrUnnamed 1023 0 ∧
    decodeRecord 0b0_000000011101_00000000000000000000000000000000#45 = .rdMisaligned 0x01D ∧
    decodeRecord 0b1_111111111111_11111111111111111111111111111111#45 = .wrMisaligned 0xFFF 0xFFFFFFFF := by decide

/-- Five bytes hold no record, and neither does a number with a bit above bit 44 (R80, log entry 6). -/
theorem test_decode_refuses_by_name :
    decode [0, 0, 0, 0, 0x1C] = .error (.tooShort 5) ∧ decode [0, 0, 0, 0, 0x1C, 0x20] = .error .paddingNotZero ∧
    decode [0x10, 0, 0, 0, 0x1C, 0x10, 0xAA] = .ok (.wrGpset0 0x10, [0xAA]) := ⟨rfl, rfl, rfl⟩

theorem test_table_words_decode :
    decodeTableWord 48 0x101C00000010 = some (.wrGpset0 0x10) ∧ decodeTableWord 45 0x003400000000 = some .rdGplev0 ∧
    decodeTableWord 48 0x201C00000010 = none := by decide

/-! One step, run as the host runs it: a table word placed at the reset state. -/

/-- V2-2 from reset. -/
theorem test_step_write_fsel0 :
    seen (step (State.reset.withFetchWord 48 0x100000001000)) = some ([0x00001000, 0, 0, 0], 0, none) := by
  decide +kernel

/-- V2-35 from reset. -/
theorem test_step_misaligned_read :
    refusal (step (State.reset.withFetchWord 48 0x001D00000000)) = some (.misaligned 0x01D) := by decide +kernel

/-! The transactions, on the vectors V2. -/

/-- V2-1, V2-5, V2-7, V2-9. -/
theorem test_read_fsel :
    seen (exec .rdGpfsel0 (regs 0x00001000 0 0 0 0)) = some ([0x00001000, 0, 0, 0], 0, some 0x00001000) ∧
    seen (exec .rdGpfsel1 (regs 0 0x08000001 0 0 0)) = some ([0, 0x08000001, 0, 0], 0, some 0x08000001) ∧
    seen (exec .rdGpfsel2 (regs 0 0 0x00000009 0 0)) = some ([0, 0, 0x00000009, 0], 0, some 0x00000009) ∧
    seen (exec .rdGpfsel3 (regs 0 0 0 0x3FFFFFC0 0)) = some ([0, 0, 0, 0x3FFFFFC0], 0, some 0x3FFFFFC0) := by
  decide +kernel

/-- V2-3, V2-4, V2-6, V2-8: bits 31:30 are dropped. -/
theorem test_write_fsel :
    seen (exec (.wrGpfsel0 0xFFFFFFFF) (regs 1 2 3 4 5)) = some ([0x3FFFFFFF, 2, 3, 4], 5, none) ∧
    seen (exec (.wrGpfsel1 0xC0000000) (regs 1 2 3 4 5)) = some ([1, 0, 3, 4], 5, none) ∧
    seen (exec (.wrGpfsel2 0x00000008) (regs 1 2 3 4 5)) = some ([1, 2, 8, 4], 5, none) ∧
    seen (exec (.wrGpfsel3 0x00000009) (regs 1 2 3 4 5)) = some ([1, 2, 3, 9], 5, none) := by decide +kernel

/-- V2-6: pin 21 becomes an output and pin 20 an input. -/
theorem test_fields_of_a_word :
    fselField (regs 0 0 8 0 0) 21 = 0b001 ∧ fselField (regs 0 0 8 0 0) 20 = 0b000 ∧
    pinMode (regs 0 0 8 0 0) 21 = .output ∧ pinMode (regs 0 0 8 0 0) 20 = .input ∧
    pinMode (regs 0 0 0x20 0 0) 21 = .alternate 0b100 := by decide +kernel

/-- V2-10 to V2-14. -/
theorem test_set :
    seen (exec (.wrGpset0 0x10) (regs 0 0 0 0 0x20)) = some ([0, 0, 0, 0], 0x30, none) ∧
    seen (exec (.wrGpset0 0x80000001) (regs 0 0 0 0 0)) = some ([0, 0, 0, 0], 0x80000001, none) ∧
    seen (exec (.wrGpset0 0) (regs 0 0 0 0 0x12345678)) = some ([0, 0, 0, 0], 0x12345678, none) := by decide +kernel

/-- V2-15 to V2-19. -/
theorem test_clear :
    seen (exec (.wrGpclr0 0x10) (regs 0 0 0 0 0x30)) = some ([0, 0, 0, 0], 0x20, none) ∧
    seen (exec (.wrGpclr0 0x80000000) (regs 0 0 0 0 0xFFFFFFFF)) = some ([0, 0, 0, 0], 0x7FFFFFFF, none) ∧
    seen (exec (.wrGpclr0 0) (regs 0 0 0 0 0x12345678)) = some ([0, 0, 0, 0], 0x12345678, none) := by decide +kernel

/-- V2-20, V2-21: a write-only register answers `WO_READ`, not the latch. -/
theorem test_write_only_reads :
    seen (exec .rdGpset0 (regs 0 0 0 0 0xFFFF)) = some ([0, 0, 0, 0], 0xFFFF, some 0) ∧
    seen (exec .rdGpclr0 (withWoRead (regs 0 0 0 0 0xFFFF) 0x20)) = some ([0, 0, 0, 0], 0xFFFF, some 0x20) := by
  decide +kernel

/-- V2-22 to V2-26: bits 4, 10 and 31 come from the latch, the rest from the pads. -/
theorem test_level_mixes_latch_and_pads :
    levelWord (regs 0x00001000 0x00000001 0 0x00000008 0x80000410) 0x00000000 = 0x80000410 ∧
    levelWord (regs 0x00001000 0x00000001 0 0x00000008 0x80000410) 0x12345678 = 0x92345678 ∧
    levelWord (regs 0x00001000 0x00000001 0 0x00000008 0) 0xFFFFFFFF = 0x7FFFFBEF ∧
    levelWord (regs 0x00001000 0x00000001 0 0x00000008 0) 0x12345678 = 0x12345268 := by decide +kernel

/-- V2-27, V2-28: no pin an output, every pin an output. -/
theorem test_level_extremes :
    levelWord (regs 0 0 0 0 0xFFFFFFFF) 0 = 0 ∧
    levelWord (regs 0x09249249 0x09249249 0x09249249 0x00000009 0xCAFEF00D) 0x35013501 = 0xCAFEF00D := by
  decide +kernel

/-- V2-29: a write of the level register is dropped. -/
theorem test_level_write_dropped :
    seen (exec (.wrGplev0 0xFFFFFFFF) (regs 1 2 3 4 5)) = some ([1, 2, 3, 4], 5, none) := by decide +kernel

/-- V2-30 to V2-32. -/
theorem test_out_of_scope :
    refusal (exec .rdGpfsel4 mapped) = some (.outOfScopeRegister .gpfsel4) ∧
    refusal (exec (.wrGpset1 1) mapped) = some (.outOfScopeRegister .gpset1) ∧
    refusal (exec .rdGplev1 mapped) = some (.outOfScopeRegister .gplev1) := by decide +kernel

/-- V2-33, V2-34, V2-36. -/
theorem test_unnamed_and_misaligned :
    refusal (step (mapped.withInputs [.bus (rd32 6)])) = some (.unnamedWord 6) ∧
    refusal (step (mapped.withInputs [.bus (wr32 37 2)])) = some (.unnamedWord 37) ∧
    refusal (step (mapped.withInputs [.bus 0x102A00000010])) = some (.misaligned 0x02A) := by decide +kernel

/-- V2-37. -/
theorem test_outside_the_lifetime :
    refusal (exec .rdGpfsel0 State.reset) = some .useOutsideLifetime ∧
    refusal (exec (.wrGpset0 1) destroyed) = some .useOutsideLifetime := by decide +kernel

/-! The Register Map: V4. -/

/-- V4-1, V4-2, V4-3. -/
theorem test_read_word :
    result (alone (.readWord 0) 1 (regs 0x1000 0 0 0 0)) = some (0, .word 0x1000) ∧
    refusal (alone (.readWord 1023) 1 mapped) = some (.unnamedWord 1023) ∧
    result (alone (.readWord 1024) 0 mapped) = some (0, .err .outOfRange) := by decide +kernel

/-- V4-5, V4-6, V4-9. -/
theorem test_write_word :
    seen (alone (.writeWord 7 0x10) 1 mapped) = some ([0, 0, 0, 0], 0x10, none) ∧
    seen (alone (.writeWord 10 0x10) 1 (regs 0 0 0 0 0x10)) = some ([0, 0, 0, 0], 0, none) ∧
    refusal (alone (.writeWord 4 0) 1 mapped) = some (.outOfScopeRegister .gpfsel4) := by decide +kernel

/-- V4-10 to V4-14. -/
theorem test_get_bit :
    result (alone (.getBit 0 12) 1 (regs 0x1000 0 0 0 0)) = some (0, .bit true) ∧
    result (alone (.getBit 0 13) 1 (regs 0x1000 0 0 0 0)) = some (0, .bit false) ∧
    result (alone (.getBit 3 31) 1 (regs 0 0 0 0x3FFFFFFF 0)) = some (0, .bit false) ∧
    refusal (alone (.getBit 0 32) 0 mapped) = some .shiftByWidth := by decide +kernel

/-! The Pin Controller: V5, V6 and the programs P4, P5. -/

/-- V5-6, V5-7, V5-9. -/
theorem test_read_level :
    levelWord (regs 0 0 0 8 0x80000000) 0 = 0x80000000 ∧
    result (alone (.readLevel 32) 0 mapped) = some (0, .err .invalidPin) ∧
    refusal (alone (.readLevel 4) 0 destroyed) = some .useOutsideLifetime := by decide +kernel

/-- V6-3, V6-6, V6-11: the word written back. -/
theorem test_configure_output :
    configureOutput 9 0x3FFFFFFF = 0x0FFFFFFF ∧ configureOutput 19 0x24924924 = 0x0C924924 ∧
    configureOutput 25 0x12345678 = 0x1234D678 := by decide +kernel

/-- V6-2, V6-10: whole calls. -/
theorem test_drive_pin :
    seen (alone (.drivePin 4 0) 5 (regs 0 0 0 0 0xFFFFFFFF)) = some ([0x1000, 0, 0, 0], 0xFFFFFFEF, none) ∧
    seen (alone (.drivePin 31 0) 5 (regs 0 0 0 0 0xFFFFFFFF)) = some ([0, 0, 0, 8], 0x7FFFFFFF, none) ∧
    result (alone (.drivePin 4 1) 5 mapped) = some (0, .ok) ∧
    viewOf 4 (alone (.drivePin 4 1) 5 mapped) = some .outputHigh := by decide +kernel

/-- V6-13 and P5: the write-only read hazard. -/
theorem test_drive_pin_with_read_back_mask :
    seen (alone (.drivePin 4 0) 5 (withWoRead (regs 0x9000 0 0 0 0x30) 0x20)) = some ([0x9000, 0, 0, 0], 0, none) := by
  decide +kernel

/-- V6-21, V6-22, V6-26. -/
theorem test_drive_pin_errors :
    result (alone (.drivePin 4 2) 0 mapped) = some (0, .err .invalidValue) ∧
    result (alone (.drivePin 32 2) 0 mapped) = some (0, .err .invalidPin) ∧
    refusal (alone (.drivePin 32 1) 0 destroyed) = some .useOutsideLifetime := by decide +kernel

/-- P4: the lost update. -/
theorem test_lost_update :
    seen (runSteps 12 (mapped.withInputs (lostUpdateInputs 0 1 4 5))) = some ([0x8000, 0, 0, 0], 0x30, none) := by
  decide +kernel

/-! The command surface: V7. -/

/-- V7-12, V7-13, V7-19, V7-25, V7-28. -/
theorem test_command_texts :
    commandVerdict [0x2B, 0x34, 0x2C, 0x2B, 0x31] = .drive 4 1 ∧
    commandVerdict [0x34, 0x20, 0x2C, 0x31] = .recovered .parseFailure ∧
    commandVerdict [0x34, 0x2C, 0x2D, 0x31] = .recovered .rangeViolation ∧
    commandVerdict [0x33, 0x31, 0x2C, 0x31] = .recovered .rangeViolation ∧
    commandVerdict [0x09, 0x34, 0x2C, 0x0A, 0x31] = .drive 4 1 := by decide +kernel

/-- V7-22: 253 spaces and `4,10`, 257 bytes, are cut to a command that drives pin 4 high. -/
theorem test_truncation_changes_the_command :
    commandVerdict (bufferText (fillBuffer (List.replicate 253 0x20 ++ [0x34, 0x2C, 0x31, 0x30]))) = .drive 4 1 := by
  decide +kernel

/-- V7-24: the parser stops at a zero byte. -/
theorem test_zero_byte_ends_the_text :
    bufferText (fillBuffer [0x34, 0x2C, 0x31, 0x00, 0x39, 0x2C, 0x31]) = [0x34, 0x2C, 0x31] := by decide +kernel

/-- V7-7, V7-4: a whole command write, and one that changes nothing. -/
theorem test_command_write :
    seen (alone (.commandWrite [0x32, 0x31, 0x2C, 0x31]) 5 mapped) = some ([0, 0, 8, 0], 0x200000, none) ∧
    result (alone (.commandWrite [0x32, 0x31, 0x2C, 0x31]) 5 mapped) = some (0, .count 4) ∧
    result (alone (.commandWrite [0x32, 0x32, 0x2C, 0x31]) 0 mapped) = some (0, .count 4) := by decide +kernel

/-- V7-30, V7-31. -/
theorem test_status_line :
    statusLine true = [0x48, 0x65, 0x6C, 0x6C, 0x6F, 0x2C, 0x20, 0x57, 0x6F, 0x72, 0x6C, 0x64, 0x21, 0x0A, 0x50,
      0x69, 0x6E, 0x34, 0x3A, 0x20, 0x31] ∧ (statusLine false).getLast? = some 0x30 := by decide +kernel

/-! The lifecycle: V8. -/

/-- V8-2, V8-3, V8-5, V8-7. -/
theorem test_lifecycle_refusals :
    refusal (alone (.map 0) 0 mapped) = some .mapTwice ∧ refusal (alone .unmap 0 State.reset) = some .unmapNotMapped ∧
    refusal (alone .unmap 0 destroyed) = some .unmapNotMapped ∧
    refusal (alone .unmap 0 (driving .readMask)) = some .unmapInFlight := by decide +kernel

/-- V8-4: the registers keep their values. -/
theorem test_unmap_keeps_the_pins :
    lifeOf (alone .unmap 0 (regs 0x1000 0 0 0 0x10)) = some .destroyed ∧
    seen (alone .unmap 0 (regs 0x1000 0 0 0 0x10)) = some ([0x1000, 0, 0, 0], 0x10, none) := by decide +kernel

/-! Witnesses: for every obligation with hypotheses, a state and operands that meet them. -/

theorem reset_reserved : ReservedBitsZero State.reset := by
  unfold ReservedBitsZero; decide +kernel

theorem regs_reserved : ReservedBitsZero (regs 0x3FFFFFFF 0 0 0x3FFFFFF8 0) := by
  unfold ReservedBitsZero; decide +kernel

theorem mapped_inv : Inv (mapped.withInputs [.bus (wr32 0 0xFFFFFFFF)]) where
  reserved := by unfold ReservedBitsZero; decide +kernel
  sorted := List.Pairwise.nil
  flight := fun _ => rfl
  mask := fun _ _ _ _ _ h => by cases h

/-- The mask clause of the invariant is met by a state that has a mask waiting. -/
theorem driving_inv : Inv ((driving (.writeMask 0)).withInputs [.resume 1]) where
  reserved := by unfold ReservedBitsZero; decide +kernel
  sorted := List.pairwise_singleton _ _
  flight := fun _ => rfl
  mask := by
    intro c p d o m h
    obtain ⟨-, h⟩ := Prod.mk.inj (List.mem_singleton.1 h)
    cases h
    rfl

theorem idle_mapped (l : List Input) : Idle 0 (mapped.withInputs l) := rfl

theorem witness_DecodeEncodeRoundTrip :
    (Instr.rdUnnamed 6).WellFormed ∧ (Instr.wrUnnamed 1023 0xFFFFFFFF).WellFormed ∧
    (Instr.rdMisaligned 0x001).WellFormed ∧ (Instr.wrMisaligned 0xFFF 0).WellFormed ∧
    (Instr.wrGpfsel3 0xFFFFFFFF).WellFormed := by decide

theorem witness_DecoderFollowsTheTable : (recordHeader 0x1FFFFFFFFFFF#45).getLsbD 12 = true := by decide

theorem witness_PinDecoderMatchesItsTable :
    (31, 3, 1, 3, 5, 3, 0xFFFFFFC7#32, 0x00000008#32, 0x80000000#32) ∈ pinTableLow ++ pinTableHigh := by decide

theorem witness_PinMasksAreDisjoint :
    (0 : Fin 32) ≠ 9 ∧ fselIndex (0 : Fin 32) = fselIndex (9 : Fin 32) ∧ (30 : Fin 32) ≠ 31 ∧
    fselIndex (30 : Fin 32) = fselIndex (31 : Fin 32) := by decide

theorem witness_PinsAbove31HaveNoBankBit : 32 ≤ 32 ∧ admittedPin 32 = none ∧ (admittedPin 31).isSome := by decide

theorem witness_ConfigureOutputChangesOneField :
    ((0 : Fin 10).val ≠ fselBitpos (9 : Fin 32)) ∧ fselFieldOf 0x08000000#32 (fselBitpos (9 : Fin 32)) = 0b001#3 := by
  decide

theorem witness_StepRunsTheDecodedTransaction :
    (mapped.withInputs [.bus (wr32 1023 5)]).inputs = [.bus (wr32 1023 5)] ∧ (Instr.rdMisaligned 0xFFF).WellFormed ∧
    State.reset.inputs = [] := by decide

theorem witness_PhysicalAddressNamesTheWord :
    (mapped.withInputs [.access true 4092 5]).inputs = [.access true (mapped.params.gpioBase + 4 * (1023#10).toNat) 5] ∧
    (mapped.withInputs [.access false 4096 0]).inputs = [.access false 4096 0] ∧ mapped.params.gpioBase + 4096 ≤ 4096 ∧
    4095 < ({ mapped with params := ⟨4096, 0⟩ } : State).params.gpioBase := by decide

theorem witness_FunctionSelectReadsAnswerTheWord :
    (regs 0x3FFFFFFF 0 0 0x3FFFFFF8 0).life = .mapped ∧ ReservedBitsZero (regs 0x3FFFFFFF 0 0 0x3FFFFFF8 0) :=
  ⟨rfl, regs_reserved⟩

theorem witness_FunctionSelectWritesReplaceTheWord : mapped.life = .mapped := rfl

theorem witness_WriteOnlyReadsAnswerWoRead : (withWoRead mapped 0x20).life = .mapped := rfl

theorem witness_SetAndClearActOnTheLatch : (regs 0 0 0 0 0x80000001).life = .mapped := rfl

theorem witness_LevelReadAnswersLatchOrDraw :
    (regs 0x09249249 0x09249249 0x09249249 0x00000009 5).life = .mapped ∧
    (∀ p : Fin 32, fselField (regs 0x09249249 0x09249249 0x09249249 0x00000009 5) (fieldPin p) = 0b001#3) := by
  decide +kernel

theorem witness_LevelWriteIsDropped : mapped.life = .mapped := rfl

theorem witness_OutOfScopeRegistersAreRefused : mapped.life = .mapped := rfl

theorem witness_UnnamedWordsAreRefused :
    mapped.life = .mapped ∧
    (6#10 ∉ [0#10, 1#10, 2#10, 3#10, 4#10, 5#10, 7#10, 8#10, 10#10, 11#10, 13#10, 14#10]) ∧
    (1023#10 ∉ [0#10, 1#10, 2#10, 3#10, 4#10, 5#10, 7#10, 8#10, 10#10, 11#10, 13#10, 14#10]) := by decide

theorem witness_MisalignedAccessesAreRefused :
    mapped.life = .mapped ∧ (0x001#12).extractLsb' 0 2 ≠ 0#2 ∧ (0xFFE#12).extractLsb' 0 2 ≠ 0#2 := by decide

theorem witness_NoTransactionOutsideTheLifetime : State.reset.life ≠ .mapped ∧ destroyed.life ≠ .mapped := by decide

theorem witness_BusTransactionFrame :
    (∃ t, exec (.wrGpfsel3 0xFFFFFFFF) mapped = .next t) ∧ (∃ t, exec .rdGplev0 mapped = .next t) ∧
    (∀ d, Instr.wrGpfsel3 0xFFFFFFFF ≠ fselWrite 0 d) ∧
    (∀ d, Instr.rdGplev0 ≠ .wrGpset0 d ∧ Instr.rdGplev0 ≠ .wrGpclr0 d) ∧ Instr.wrGpfsel3 0xFFFFFFFF ≠ .rdGplev0 := by
  refine ⟨⟨_, rfl⟩, ⟨_, rfl⟩, ?_, ?_, ?_⟩ <;> simp [fselWrite]

theorem witness_LatchBitMovesOnlyBySetOrClear :
    (∃ t, exec (.wrGpset0 0x80000000) mapped = .next t ∧ t.out[(31 : Fin 32)] ≠ mapped.out[(31 : Fin 32)]) ∧
    (∃ t, exec (.wrGpclr0 1) (regs 0 0 0 0 1) = .next t ∧ t.out[(0 : Fin 32)] ≠ (regs 0 0 0 0 1).out[(0 : Fin 32)]) :=
  ⟨⟨_, rfl, by decide⟩, ⟨_, rfl, by decide⟩⟩

theorem witness_WrittenFieldsReadBackWithoutReservedBits : mapped.life = .mapped := rfl

theorem witness_SetAndClearLaws : (regs 0 0 0 0 0x0000000F).life = .mapped ∧ 0x000000F0#32 &&& 0x0000000F#32 = 0 := by
  decide

theorem witness_PlainWritesLeaveOtherPinsAlone :
    mapped.life = .mapped ∧ ∀ i ∈ [Instr.wrGpset0 0x00000010, .wrGpclr0 0x7FFFFFDF], SparesPin 5 i := by
  refine ⟨rfl, fun i hi => ?_⟩
  rcases List.mem_cons.1 hi with rfl | hi
  · exact ⟨_, by decide, .inl rfl⟩
  · exact ⟨_, by decide, .inr (List.mem_singleton.1 hi)⟩

theorem witness_PlainWriteOfOneBitDrivesOnePin :
    (withWoRead mapped 0x80000000).life = .mapped ∧
    (withWoRead mapped 0x80000000).params.woRead &&& ~~~pinBit 31 = 0 := by decide

theorem witness_MapSucceedsOrFailsAndTouchesNoRegister :
    Idle 0 (State.reset.withInputs [.call 0 (.map 0)]) ∧ (State.reset.withInputs [.call 0 (.map 0)]).life = .unmapped ∧
    0 = State.reset.params.gpioBase ∧ Idle 0 (mapped.withInputs [.call 0 (.map 0)]) ∧ mapped.life ≠ .unmapped :=
  ⟨rfl, rfl, rfl, rfl, by decide⟩

theorem witness_UnmapReleasesOnceAndTouchesNoRegister :
    Idle 0 (State.reset.withInputs [.call 0 .unmap]) ∧ State.reset.life ≠ .mapped ∧
    Idle 0 ((driving .readMask).withInputs [.call 0 .unmap]) ∧ someInFlight (driving .readMask) = true ∧
    Idle 0 ((driving .finish).withInputs [.call 0 .unmap]) ∧ someInFlight (driving .finish) = false :=
  ⟨rfl, by decide, rfl, rfl, rfl, rfl⟩

theorem witness_StartMapsOrAbortsAndTouchesNoRegister :
    Idle 0 (State.reset.withInputs [.call 0 .start]) ∧ State.reset.life = .unmapped ∧ FlightOnlyMapped State.reset ∧
    Idle 0 (destroyed.withInputs [.call 0 .start]) ∧ destroyed.life ≠ .unmapped :=
  ⟨rfl, rfl, fun h => absurd h (by decide), rfl, by decide⟩

theorem witness_StopUnmapsAndTouchesNoRegister :
    Idle 0 (mapped.withInputs [.call 0 .stop]) ∧ mapped.life = .mapped ∧ someInFlight mapped = false ∧
    Idle 0 ((driving (.writeMask 0)).withInputs [.call 0 .stop]) ∧ someInFlight (driving (.writeMask 0)) = true ∧
    Idle 0 (destroyed.withInputs [.call 0 .stop]) ∧ destroyed.life ≠ .mapped ∧ destroyed.life = .destroyed :=
  ⟨rfl, rfl, rfl, rfl, rfl, rfl, by decide, rfl⟩

theorem witness_ReadWordIsOneReadOfTheWord :
    Idle 0 (destroyed.withInputs [.call 0 (.readWord 1023)]) ∧ destroyed.life ≠ .mapped ∧
    Idle 0 (mapped.withInputs [.call 0 (.readWord 1024)]) ∧ mapped.life = .mapped ∧ 1024 ≤ 1024 :=
  ⟨rfl, by decide, rfl, rfl, Nat.le_refl _⟩

theorem witness_WriteWordIsOneWriteOfTheWord :
    Idle 0 (destroyed.withInputs [.call 0 (.writeWord 1023 5)]) ∧ destroyed.life ≠ .mapped ∧
    Idle 0 (mapped.withInputs [.call 0 (.writeWord 1024 5)]) ∧ mapped.life = .mapped ∧ 1024 ≤ 1024 :=
  ⟨rfl, by decide, rfl, rfl, Nat.le_refl _⟩

theorem witness_GetBitReturnsTheBitOfTheWord :
    Idle 0 (mapped.withInputs [.call 0 (.getBit 0 32)]) ∧ 32 ≤ 32 ∧
    Idle 0 (destroyed.withInputs [.call 0 (.getBit 1024 31)]) ∧ 31 < 32 ∧ destroyed.life ≠ .mapped ∧
    Idle 0 (mapped.withInputs [.call 0 (.getBit 1024 31)]) ∧ mapped.life = .mapped ∧ 1024 ≤ 1024 :=
  ⟨rfl, Nat.le_refl _, rfl, by decide, by decide, rfl, rfl, Nat.le_refl _⟩

theorem witness_ReadLevelReturnsLatchOrDraw :
    Idle 0 (destroyed.withInputs [.call 0 (.readLevel 31)]) ∧ destroyed.life ≠ .mapped ∧
    Idle 0 (mapped.withInputs [.call 0 (.readLevel 32)]) ∧ mapped.life = .mapped ∧ 32 ≤ 32 :=
  ⟨rfl, by decide, rfl, rfl, Nat.le_refl _⟩

theorem witness_DrivePinChecksBeforeAnyTransaction :
    Idle 0 (destroyed.withInputs [.call 0 (.drivePin 32 2)]) ∧ destroyed.life ≠ .mapped ∧
    Idle 0 (mapped.withInputs [.call 0 (.drivePin 32 2)]) ∧ mapped.life = .mapped ∧ 32 ≤ 32 ∧
    Idle 0 (mapped.withInputs [.call 0 (.drivePin 31 2)]) ∧ 31 < 32 ∧ 2 ≤ 2 :=
  ⟨rfl, by decide, rfl, rfl, Nat.le_refl _, rfl, by decide, Nat.le_refl _⟩

theorem witness_DrivePinStagesAreItsTransactions :
    (3 : Fin 4).val = fselIndex (31 : Fin 32) ∧ mapped.life = .mapped ∧
    findCall 1 (driving .readFsel).calls = some (.driving 31 true .direct .readFsel) ∧
    findCall 1 (driving (.writeFsel 7)).calls = some (.driving 31 true .direct (.writeFsel 7)) ∧
    findCall 1 (driving .readMask).calls = some (.driving 31 true .direct .readMask) ∧
    findCall 1 (driving (.writeMask 7)).calls = some (.driving 31 true .direct (.writeMask 7)) ∧
    findCall 1 (driving .finish).calls = some (.driving 31 true .direct .finish) ∧
    ReservedBitsZero mapped :=
  ⟨rfl, rfl, rfl, rfl, rfl, rfl, rfl, reset_reserved⟩

theorem witness_DrivePinNetEffectForOneCaller :
    (3 : Fin 4).val = fselIndex (31 : Fin 32) ∧ (regs 0x3FFFFFFF 0 0 0x3FFFFFF8 0).life = .mapped ∧
    Idle 0 (regs 0x3FFFFFFF 0 0 0x3FFFFFF8 0) ∧ ReservedBitsZero (regs 0x3FFFFFFF 0 0 0x3FFFFFF8 0) :=
  ⟨rfl, rfl, rfl, regs_reserved⟩

theorem witness_DrivePinReadsBackAndIsIsolated :
    mapped.life = .mapped ∧ Idle 0 mapped ∧ (39 : Fin 40) ≠ fieldPin 31 ∧ (0 : Fin 32) ≠ 31 ∧
    mapped.params.woRead &&& ~~~pinBit 31 = 0 := ⟨rfl, rfl, by decide, by decide, by decide⟩

theorem witness_TwoCallersCanLoseAFieldUpdate :
    (0 : Nat) ≠ 1 ∧ (30 : Fin 32) ≠ 31 ∧ fselIndex (30 : Fin 32) = fselIndex (31 : Fin 32) ∧ mapped.life = .mapped ∧
    Idle 0 mapped ∧ Idle 1 mapped := ⟨by decide, by decide, rfl, rfl, rfl, rfl⟩

theorem witness_ViewCanDisagreeWithTheLatch : (0 : Nat) ≠ 1 ∧ mapped.life = .mapped ∧ Idle 0 mapped ∧ Idle 1 mapped :=
  ⟨by decide, rfl, rfl, rfl⟩

theorem witness_OldLatchBitIsDrivenBeforeTheLevelIsWritten :
    (0 : Nat) ≠ 1 ∧ (regs 0 0 0 0 0x80000000).life = .mapped ∧ Idle 0 (regs 0 0 0 0 0x80000000) ∧
    Idle 1 (regs 0 0 0 0 0x80000000) := ⟨by decide, rfl, rfl, rfl⟩

theorem witness_StatusLineReportsPin4 : mapped.life = .mapped ∧ Idle 0 mapped := ⟨rfl, rfl⟩

theorem witness_GrammarReadsTwoIntegersAndAComma :
    (∀ b ∈ [0x20#8] ++ [0x0A#8], isWs b = true) ∧ (∀ b ∈ [0x32#8, 0x31#8] ++ [0x31#8], isDigit b = true) ∧
    (∀ b, [0x78#8].head? = some b → isDigit b = false) ∧
    (∀ b, ([0x20#8, 0x2C#8] : List Byte).head? = some b → isDigit b = false ∧ b ≠ 0x2C) ∧
    decimalValue [0x32#8, 0x31#8] ≤ 2147483647 ∧ decimalValue (List.replicate 10 0x39#8) > 2147483647 := by
  refine ⟨by decide, by decide, ?_, ?_, by decide, by decide⟩ <;> intro b h <;> cases h <;> decide

/-- The ends without an integer: nothing, a letter, and after a sign a space or another sign. -/
theorem witness_NoInteger :
    NoInteger none [] ∧ NoInteger none [0x78] ∧ NoInteger (some true) [0x20] ∧ NoInteger (some false) [0x2D, 0x34] := by
  refine ⟨?_, ?_, ?_, ?_⟩ <;> intro b h <;> cases h <;> decide

/-- V7-15 (`4,`), V7-17 (the empty text), and by R203 `4,x`, `4,- 1`, `+-4,1`: no second or no first integer. -/
theorem test_missing_integers :
    parseCommand [0x34, 0x2C] = .failure ∧ parseCommand [] = .failure ∧ parseCommand [0x34, 0x2C, 0x78] = .failure ∧
    parseCommand [0x34, 0x2C, 0x2D, 0x20, 0x31] = .failure ∧
    parseCommand [0x2B, 0x2D, 0x34, 0x2C, 0x31] = .failure := by decide

theorem witness_CommandBufferIsZeroedFilledAndCut :
    (List.replicate 256 0x20#8 ++ [0x31#8]).take 256 = (List.replicate 256 0x20#8).take 256 := by decide +kernel

theorem witness_RangeCheckAcceptsPins0To21AndBits :
    (mapped.life = .mapped ∧ Idle 0 mapped) ∧ bufferText (fillBuffer [0x32, 0x32, 0x2C, 0x31]) = [0x32, 0x32, 0x2C, 0x31] ∧
    parseCommand [0x32, 0x31, 0x2C, 0x31] = .pair 21 1 ∧ parseCommand [0x32, 0x32, 0x2C, 0x31] = .pair 22 1 ∧
    parseCommand [0x2D, 0x31, 0x2C, 0x31] = .pair (-1) 1 ∧ parseCommand [0x30, 0x2C, 0x30] = .pair 0 0 :=
  ⟨⟨rfl, rfl⟩, by decide +kernel⟩

theorem witness_BadCommandsMutateNoRegister :
    mapped.life = .mapped ∧ Idle 0 mapped ∧
    commandVerdict (bufferText (fillBuffer [0x32, 0x32, 0x2C, 0x31])) = .recovered .rangeViolation ∧
    commandVerdict (bufferText (fillBuffer (List.replicate 11 0x39))) = .refuse ∧
    commandVerdict (bufferText (fillBuffer [0x32, 0x31, 0x2C, 0x31])) = .drive 21 1 := by
  refine ⟨rfl, rfl, ?_, ?_, ?_⟩ <;> decide +kernel

theorem witness_GoodCommandsDriveTheirPin :
    (2 : Fin 4).val = fselIndex (21 : Fin 32) ∧ mapped.life = .mapped ∧ Idle 0 mapped ∧ ReservedBitsZero mapped ∧
    commandVerdict (bufferText (fillBuffer [0x32, 0x31, 0x2C, 0x31])) = .drive (21 : Fin 32) true.toNat := by
  refine ⟨rfl, rfl, rfl, reset_reserved, ?_⟩; decide +kernel

theorem witness_SurfaceNeedsTheMapping :
    destroyed.life ≠ .mapped ∧ Idle 0 (destroyed.withInputs [.call 0 .statusRead]) ∧
    Idle 0 (State.reset.withInputs [.call 0 (.commandWrite [0x34])]) := ⟨by decide, rfl, rfl⟩

theorem witness_CallersRunOneOperationAtATime :
    findCall 1 (driving .readMask).calls = some (.driving 31 true .direct .readMask) ∧
    Idle 0 ((driving .readMask).withInputs [.resume 0]) := ⟨rfl, rfl⟩

theorem witness_EveryStepKeepsTheInvariant :
    (∃ t, Inv (mapped.withInputs [.bus (wr32 0 0xFFFFFFFF)]) ∧
      step (mapped.withInputs [.bus (wr32 0 0xFFFFFFFF)]) = .next t) ∧
    (∃ t, Inv ((driving (.writeMask 0)).withInputs [.resume 1]) ∧
      step ((driving (.writeMask 0)).withInputs [.resume 1]) = .next t) :=
  ⟨⟨_, mapped_inv, rfl⟩, ⟨_, driving_inv, rfl⟩⟩

theorem witness_NoStepWritesTheParameters : ∃ t, step (mapped.withInputs [.call 0 .stop]) = .next t := ⟨_, rfl⟩

theorem witness_LifecycleMovesForwardOnly :
    ∃ t, step (mapped.withInputs [.call 0 .unmap]) = .next t ∧ t.life ≠ (mapped.withInputs [.call 0 .unmap]).life :=
  ⟨_, rfl, by decide⟩

theorem witness_RegistersStandStillOutsideTheLifetime :
    ∃ t, step (destroyed.withInputs [.resume 0]) = .next t ∧ destroyed.life ≠ .mapped := ⟨_, rfl, by decide⟩

theorem witness_ViewMovesOnlyAtTheEndOfADrivePin :
    ∃ t, step ((driving .finish).withInputs [.resume 1]) = .next t ∧
      t.view[(31 : Fin 32)] ≠ (driving .finish).view[(31 : Fin 32)] := ⟨_, rfl, by decide +kernel⟩

/-- One step for each kind of input; the write pending in caller 1's `drive_pin` is the last of its four. -/
theorem witness_RegistersMoveOnlyByOneTransaction :
    (∃ t, step (mapped.withInputs [.bus (wr32 0 1)]) = .next t ∧
      servedTransaction (mapped.withInputs [.bus (wr32 0 1)]) = some (.wrGpfsel0 1)) ∧
    (∃ t, step (mapped.withInputs [.access true 28 5]) = .next t ∧
      servedTransaction (mapped.withInputs [.access true 28 5]) = some (.wrGpset0 5)) ∧
    (∃ t, step ((driving (.writeMask 0)).withInputs [.resume 1]) = .next t ∧
      servedTransaction ((driving (.writeMask 0)).withInputs [.resume 1]) = some (.wrGpset0 0x80000000)) ∧
    (∃ t, step ((driving .finish).withInputs [.resume 1]) = .next t ∧
      servedTransaction ((driving .finish).withInputs [.resume 1]) = none) ∧
    (∃ t, step (mapped.withInputs [.call 0 (.drivePin 31 1)]) = .next t) :=
  ⟨⟨_, rfl, by decide +kernel⟩, ⟨_, rfl, by decide +kernel⟩, ⟨_, rfl, by decide +kernel⟩, ⟨_, rfl, rfl⟩, ⟨_, rfl⟩⟩

theorem witness_OvertakenOperationsReturnOrAreRefused :
    ({ driving .readFsel with life := .destroyed } : State).life ≠ .mapped ∧
    findCall 1 (driving .readFsel).calls = some (.driving 31 true .direct .readFsel) ∧
    nextTransaction (.driving 31 true .direct .readFsel) = some .rdGpfsel3 ∧
    findCall 1 (driving .finish).calls = some (.driving 31 true .direct .finish) :=
  ⟨by decide, rfl, by decide, rfl⟩

end Sys2Proof.Tests
end

section
/-! PROOFS. The decoder undoes the encoder on every well-formed instruction (R80 to R83). -/

namespace Sys2Proof.Machine

/-- Rows 1 to 24 of R83, the ones with an exact header, which are tried before the catch-all rows. -/
def exactRows : List (String × Header × Header) := decodeTableExact ++ decodeTableOutOfScope

/-- What sets the catch-all rows apart: an exact row's header has lane 0 and names one of `namedWoffs` (R81, R83). -/
theorem exactRows_aligned_named :
    ∀ row ∈ exactRows, row.2.1.extractLsb' 0 2 = 0#2 ∧ row.2.1.extractLsb' 2 10 ∈ namedWoffs := by
  decide

/-- A record whose header no exact row has falls through to the catch-all rows (R83 rows 25 to 28). -/
theorem decodeRecord_catchAll {r : Record} (h : ∀ row ∈ exactRows, recordHeader r ≠ row.2.1) :
    decodeRecord r =
      if recordHeader r &&& 0x1003#13 = 0x0000#13 then .rdUnnamed (recordWoff r)
      else if recordHeader r &&& 0x1003#13 = 0x1000#13 then .wrUnnamed (recordWoff r) (recordData r)
      else if recordHeader r &&& 0x1000#13 = 0x0000#13 then .rdMisaligned (recordBoff r)
      else .wrMisaligned (recordBoff r) (recordData r) := by
  simp_all [decodeRecord, exactRows, decodeTableExact, decodeTableOutOfScope]

/-! The headers of the catch-all rows, for either value `w` of the write bit. -/

theorem alignedHeader_woff (w : BitVec 1) (woff : WordOffset) :
    (w ++ woff ++ 0#2 : Header).extractLsb' 2 10 = woff := by
  rw [BitVec.extractLsb'_append_eq_of_le (by decide), BitVec.extractLsb'_append_eq_right]

theorem header_lane (w : BitVec 1) (boff : ByteOffset) :
    (w ++ boff : Header).extractLsb' 0 2 = boff.extractLsb' 0 2 :=
  BitVec.extractLsb'_append_eq_of_add_le (by decide)

theorem unnamedHeader_notExact (w : BitVec 1) {woff : WordOffset} (h : woff ∉ namedWoffs) :
    ∀ row ∈ exactRows, (w ++ woff ++ 0#2 : Header) ≠ row.2.1 := by
  intro row hrow e
  have hnamed := (exactRows_aligned_named row hrow).2
  rw [← e, alignedHeader_woff] at hnamed
  exact h hnamed

theorem misalignedHeader_notExact (w : BitVec 1) {boff : ByteOffset} (h : boff.extractLsb' 0 2 ≠ 0#2) :
    ∀ row ∈ exactRows, (w ++ boff : Header) ≠ row.2.1 := by
  intro row hrow e
  have hlane := (exactRows_aligned_named row hrow).1
  rw [← e, header_lane] at hlane
  exact h hlane

/-- The mask of rows 25 and 26 keeps the write bit and the lane. -/
theorem alignedHeader_and_mask (w : BitVec 1) (woff : WordOffset) :
    (w ++ woff ++ 0#2 : Header) &&& 0x1003#13 = w ++ 0#12 :=
  calc (w ++ woff ++ 0#2 : Header) &&& 0x1003#13
      = (w ++ woff ++ 0#2) &&& (BitVec.allOnes 1 ++ 0#10 ++ 3#2) := rfl
    _ = w ++ 0#10 ++ 0#2 := by
      rw [BitVec.and_append, BitVec.and_append, BitVec.and_allOnes, BitVec.and_zero, BitVec.zero_and]
    _ = w ++ 0#12 := BitVec.append_assoc

theorem misalignedHeader_and_mask_ne (w v : BitVec 1) {boff : ByteOffset} (h : boff.extractLsb' 0 2 ≠ 0#2) :
    (w ++ boff : Header) &&& 0x1003#13 ≠ v ++ 0#12 := by
  intro e
  refine h ?_
  calc boff.extractLsb' 0 2
      = boff.extractLsb' 0 2 &&& BitVec.allOnes 2 := BitVec.and_allOnes.symm
    _ = ((w ++ boff : Header) &&& 0x1003#13).extractLsb' 0 2 := by
        rw [BitVec.extractLsb'_and, header_lane]; rfl
    _ = 0#2 := by rw [e, header_lane]; rfl

/-- The mask of rows 27 and 28 keeps the write bit. -/
theorem header_and_writeMask (w : BitVec 1) (boff : ByteOffset) :
    (w ++ boff : Header) &&& 0x1000#13 = w ++ 0#12 :=
  calc (w ++ boff : Header) &&& 0x1000#13
      = (w ++ boff) &&& (BitVec.allOnes 1 ++ 0#12) := rfl
    _ = w ++ 0#12 := by rw [BitVec.and_append, BitVec.and_allOnes, BitVec.and_zero]

/-! Whole records of the catch-all rows. -/

theorem recordWoff_append (w : BitVec 1) (woff : WordOffset) (d : Word) :
    recordWoff ((w ++ woff ++ 0#2 : Header) ++ d) = woff := by
  rw [recordWoff, recordBoff_append, BitVec.extractLsb'_extractLsb'_of_le (by decide)]
  exact alignedHeader_woff w woff

theorem decodeRecord_unnamed (w : BitVec 1) {woff : WordOffset} (h : woff ∉ namedWoffs) (d : Word) :
    decodeRecord ((w ++ woff ++ 0#2 : Header) ++ d) =
      if w = 0#1 then .rdUnnamed woff else .wrUnnamed woff d := by
  rw [decodeRecord_catchAll (by rw [recordHeader_append]; exact unnamedHeader_notExact w h),
    recordHeader_append, recordData_append, recordWoff_append, alignedHeader_and_mask]
  obtain rfl | rfl := BitVec.eq_zero_or_eq_one w <;> rfl

theorem decodeRecord_misaligned (w : BitVec 1) {boff : ByteOffset} (h : boff.extractLsb' 0 2 ≠ 0#2) (d : Word) :
    decodeRecord ((w ++ boff : Header) ++ d) =
      if w = 0#1 then .rdMisaligned boff else .wrMisaligned boff d := by
  have hboff : recordBoff ((w ++ boff : Header) ++ d) = boff :=
    (recordBoff_append _ d).trans BitVec.extractLsb'_append_eq_right
  have hread : (w ++ boff : Header) &&& 0x1003#13 ≠ 0x0000#13 := misalignedHeader_and_mask_ne w 0#1 h
  have hwrite : (w ++ boff : Header) &&& 0x1003#13 ≠ 0x1000#13 := misalignedHeader_and_mask_ne w 1#1 h
  rw [decodeRecord_catchAll (by rw [recordHeader_append]; exact misalignedHeader_notExact w h),
    recordHeader_append, recordData_append, hboff, if_neg hread, if_neg hwrite, header_and_writeMask]
  obtain rfl | rfl := BitVec.eq_zero_or_eq_one w <;> rfl

@[simp] theorem recordHeader_encodeRecord (i : Instr) : recordHeader (encodeRecord i) = instrHeader i :=
  recordHeader_append _ _

@[simp] theorem recordData_encodeRecord (i : Instr) : recordData (encodeRecord i) = instrData i :=
  recordData_append _ _

/-- The catch-all rows decode by what their operands may not be, the exact rows by their
headers. -/
theorem decodeRecord_encodeRecord {i : Instr} (h : i.WellFormed) : decodeRecord (encodeRecord i) = i := by
  cases i
  case rdUnnamed woff => exact decodeRecord_unnamed 0#1 (by simpa [Instr.WellFormed, Instr.wf] using h) 0
  case wrUnnamed woff d => exact decodeRecord_unnamed 1#1 (by simpa [Instr.WellFormed, Instr.wf] using h) d
  case rdMisaligned boff =>
    exact decodeRecord_misaligned 0#1 (by simpa [Instr.WellFormed, Instr.wf, misalignedOffset] using h) 0
  case wrMisaligned boff d =>
    exact decodeRecord_misaligned 1#1 (by simpa [Instr.WellFormed, Instr.wf, misalignedOffset] using h) d
  all_goals simp [decodeRecord, instrHeader, instrData]

end Sys2Proof.Machine
end

section
/-! PROOFS. A step on a placed table word, and the statement of 00_scope.md section 4 (R9, R21, R83). -/

namespace Sys2Proof.Machine

/-- A record written as a 48-bit table word has the bytes the record itself has. -/
theorem tableWordBytes_toNat (r : Record) : tableWordBytes 48 r.toNat = bytesOfRecord r := by
  have top : BitVec.ofNat 8 (r.toNat / 2 ^ 40) = (r.extractLsb' 40 5).setWidth 8 := by
    apply BitVec.eq_of_toNat_eq
    have := r.isLt
    simp only [BitVec.toNat_ofNat, BitVec.toNat_setWidth, BitVec.extractLsb'_toNat, Nat.shiftRight_eq_div_pow]
    omega
  change bytesOfNat 6 r.toNat = _
  simp only [bytesOfRecord, ← top]
  simp [bytesOfNat, Nat.div_div_eq_div_mul, BitVec.extractLsb', Nat.shiftRight_eq_div_pow]

theorem withFetchWord_toNat (s : State) (r : Record) :
    s.withFetchWord 48 r.toNat = { s with inputs := .bus r :: s.inputs, life := .mapped } := by
  have hr : recordOfBytes (bytesOfRecord r) = .ok (r, []) := recordOfBytes_bytesOfRecord r []
  rw [State.withFetchWord, tableWordBytes_toNat, hr]

theorem step_nil {s : State} (h : s.inputs = []) : step s = .next s := by
  rw [step, h]

theorem step_cons {s : State} {i : Input} {rest : List Input} (h : s.inputs = i :: rest) :
    step s = serve i (s.accept rest) := by
  rw [step, h]

/-- Settles O9: a record is served by the arm of `serve` for it, and a placed word holds the record that
`decodeRecord_encodeRecord` reads back. -/
theorem stepRunsTheDecodedTransaction : Obligations.StepRunsTheDecodedTransaction := by
  refine ⟨fun s r rest h => step_cons h, fun s i hi => ?_, fun s h => step_nil h⟩
  rw [withFetchWord_toNat, step_cons rfl]
  exact congrArg (exec · _) (decodeRecord_encodeRecord hi)

end Sys2Proof.Machine
end

section
/-! PROOFS. What one transaction does to the latch and the function-select words, bit by bit (R31, R32, R37, R40). -/

namespace Sys2Proof.Machine

/-- The mask of a function-select write leaves bits 31:30 as 0 (R32). -/
theorem extractLsb'_reservedMask (d : Word) : (d &&& 0x3FFFFFFF#32).extractLsb' 30 2 = 0#2 := by
  rw [BitVec.extractLsb'_and]
  exact BitVec.and_zero

theorem fselFieldOf_ones : ∀ k : Fin 10, fselFieldOf 0x3FFFFFFF#32 k = BitVec.allOnes 3 := by decide

/-- The ten fields lie below bits 31:30, so the mask leaves every code as written (R25, R32). -/
theorem fselFieldOf_reservedMask (d : Word) (k : Fin 10) : fselFieldOf (d &&& 0x3FFFFFFF#32) k = fselFieldOf d k := by
  calc fselFieldOf (d &&& 0x3FFFFFFF#32) k
      = fselFieldOf d k &&& fselFieldOf 0x3FFFFFFF#32 k := BitVec.extractLsb'_and
    _ = fselFieldOf d k := by rw [fselFieldOf_ones, BitVec.and_allOnes]

theorem exec_fselWrite (n : Fin 4) (d : Word) (s : State) : exec (fselWrite n d) s = writeFsel n d s := by
  fin_cases n <;> rfl

theorem exec_fselRead (n : Fin 4) (s : State) : exec (fselRead n) s = readFsel n s := by
  fin_cases n <;> rfl

/-- What a completed transaction does to the latch: a set write merges its data, a clear write masks it out, any other
leaves the latch alone (R37, R119, R121). -/
theorem exec_out {i : Instr} {s t : State} (h : exec i s = .next t) :
    (∃ d, i = .wrGpset0 d ∧ t.out = s.out ||| d) ∨ (∃ d, i = .wrGpclr0 d ∧ t.out = s.out &&& ~~~d) ∨
      t.out = s.out := by
  cases i
  case wrGpset0 d =>
    obtain ⟨-, h⟩ := whenMapped_eq_next.1 h
    cases h
    exact .inl ⟨d, rfl, rfl⟩
  case wrGpclr0 d =>
    obtain ⟨-, h⟩ := whenMapped_eq_next.1 h
    cases h
    exact .inr (.inl ⟨d, rfl, rfl⟩)
  all_goals
    obtain ⟨-, h⟩ := whenMapped_eq_next.1 h
    cases h <;> exact .inr (.inr rfl)

/-- Settles O20: every arm of `exec` stands under `whenMapped`, which refuses before it looks at what the arm would do. -/
theorem noTransactionOutsideTheLifetime : Obligations.NoTransactionOutsideTheLifetime := by
  intro s i h
  cases i <;> exact whenMapped_outside h _

/-- Settles O22: of the three things `exec_out` allows, a set can only raise a bit and a clear only lower one, each where
its data has a 1. -/
theorem latchBitMovesOnlyBySetOrClear : Obligations.LatchBitMovesOnlyBySetOrClear := by
  intro s t i p h hp
  obtain ⟨d, rfl, ht⟩ | ⟨d, rfl, ht⟩ | ht := exec_out h <;> rw [ht] at hp ⊢
  · obtain ⟨hd, -⟩ : d[p] = true ∧ s.out[p] = false := by simpa using hp
    exact .inl ⟨by simpa using Or.inr hd, d, rfl, hd⟩
  · obtain ⟨-, hd⟩ : s.out[p] = true ∧ d[p] = true := by simpa using hp
    exact .inr ⟨by simpa using fun _ => hd, d, rfl, hd⟩
  · exact absurd rfl hp

/-- Settles O23: the read answers the word the write left, and the mask of the write keeps every field. -/
theorem writtenFieldsReadBackWithoutReservedBits : Obligations.WrittenFieldsReadBackWithoutReservedBits := by
  intro s n d hm
  have hm' : (s.setFsel n d).answerNothing.life = .mapped := hm
  have hread : (s.setFsel n d).answerNothing.fsel[n] = d &&& 0x3FFFFFFF#32 := by simp
  refine ⟨(s.setFsel n d).answerNothing.answer (d &&& 0x3FFFFFFF#32), _, ?_, rfl, rfl, by simp,
    fselFieldOf_reservedMask d, extractLsb'_reservedMask d⟩
  rw [exec_fselWrite, writeFsel, whenMapped_mapped hm, andThen_next, exec_fselRead, readFsel, whenMapped_mapped hm',
    hread]

end Sys2Proof.Machine
end

section
/-! PROOFS. Everything one step can do, with the transaction its input stands for (R61), and what follows for the
parameters, the lifecycle and the registers (R24, R25, R40). -/

namespace Sys2Proof.Machine

/-- The state in which a step serves its oldest input: the input is taken, the outputs of the step before are gone. -/
def State.taken (s : State) : State := s.accept s.inputs.tail

/-- Everything a step can do. -/
inductive StepEffect (s t : State) : Prop where
  | idle (hi : servedTransaction s = none) (h : t = s ∨ t = s.taken)
  | transaction (i : Instr) (hi : servedTransaction s = some i) (h : exec i s.taken = .next t)
  | moved (c : Nat) (i : Instr) (v : State) (hi : servedTransaction s = some i) (hv : exec i s.taken = .next v)
      (h : AfterTransaction c s.taken v t)
  | called (c : Nat) (op : Op) (hi : s.inputs.head? = some (.call c op)) (h : OpEffect c op s.taken t)
  | finished (c : Nat) (p : Fin 32) (d : Bool) (o : DriveOrigin) (hi : servedTransaction s = none)
      (h : t = ((s.taken.setView p (drivenView d)).setCalls (dropCall c s.calls)).setReturned
        (some (c, driveResult o)))

/-- The call of an operation stands for no transaction (R61). -/
theorem servedTransaction_call {s : State} {c : Nat} {op : Op} (h : s.inputs.head? = some (.call c op)) :
    servedTransaction s = none := by
  obtain ⟨rest, h⟩ := List.head?_eq_some_iff.1 h
  rw [servedTransaction, h]

theorem servedTransaction_resume {s : State} {c : Nat} {rest : List Input} (h : s.inputs = .resume c :: rest) :
    servedTransaction s = (findCall c s.calls).bind nextTransaction := by
  rw [servedTransaction, h]

theorem step_effect {s t : State} (h : step s = .next t) : StepEffect s t := by
  obtain ⟨hnil, rfl⟩ | ⟨i, rest, hs, h⟩ := step_eq_next.1 h
  · exact .idle (by rw [servedTransaction, hnil]) (.inl rfl)
  · have htaken : s.accept rest = s.taken := by rw [State.taken, hs]; rfl
    rw [htaken] at h
    obtain ⟨r, hr, h⟩ | ⟨c, op, rfl, -, h⟩ | ⟨c, rfl, h⟩ := serve_effect h
    · refine .transaction _ ?_ h
      obtain rfl | ⟨w, a, d, rfl, hr⟩ := hr
      · rw [servedTransaction, hs]
      · rw [servedTransaction, hs]
        exact congrArg (Option.map decodeRecord) hr
    · exact .called c op (by rw [hs]; rfl) h
    · have hi := servedTransaction_resume hs
      obtain ⟨hc, rfl⟩ | ⟨a, i, v, hc, ha, hv, h⟩ | ⟨p, d, o, hc, h⟩ := resumeCall_effect h
      · exact .idle (hi.trans (congrArg (Option.bind · nextTransaction) hc)) (.inr rfl)
      · exact .moved c i v (hi.trans ((congrArg (Option.bind · nextTransaction) hc).trans ha)) hv h
      · exact .finished c p d o (hi.trans (congrArg (Option.bind · nextTransaction) hc)) h

/-- What follows a transaction of an operation touches the list of operations and the result only. -/
theorem AfterTransaction.frame {c : Nat} {u v t : State} (h : AfterTransaction c u v t) :
    t.fsel = v.fsel ∧ t.out = v.out ∧ t.life = v.life ∧ t.params = v.params ∧ t.reply = v.reply ∧
      t.padDraws = v.padDraws := by
  cases h with
  | ended r h => subst h; exact ⟨rfl, rfl, rfl, rfl, rfl, rfl⟩
  | wentOn p d o stage hs h => subst h; exact ⟨rfl, rfl, rfl, rfl, rfl, rfl⟩

/-- The call of an operation touches no register, draws no level and writes no parameter (R61). -/
theorem OpEffect.frame {c : Nat} {op : Op} {u t : State} (h : OpEffect c op u t) :
    t.fsel = u.fsel ∧ t.out = u.out ∧ t.params = u.params ∧ t.padDraws = u.padDraws := by
  cases h with
  | returned b r h => subst h; exact ⟨rfl, rfl, rfl, rfl⟩
  | began b a hm ha h => subst h; exact ⟨rfl, rfl, rfl, rfl⟩
  | lifecycle l k r hl h => subst h; exact ⟨rfl, rfl, rfl, rfl⟩

/-- A call leaves `LIFE` alone or makes one of the moves of its operation. -/
theorem OpEffect.life {c : Nat} {op : Op} {u t : State} (h : OpEffect c op u t) :
    t.life = u.life ∨ LifeMove op u t.life := by
  cases h with
  | returned b r h => subst h; exact .inl rfl
  | began b a hm ha h => subst h; exact .inl rfl
  | lifecycle l k r hl h => subst h; exact .inr hl

/-- Settles O55: of the effects of a step none writes the parameters. -/
theorem noStepWritesTheParameters : Obligations.NoStepWritesTheParameters := by
  intro s t h
  cases step_effect h with
  | idle hi h => obtain rfl | rfl := h <;> rfl
  | transaction i hi h =>
    obtain ⟨-, -, -, hp, -⟩ := exec_keeps h
    exact hp
  | moved c i v hi hv h =>
    obtain ⟨-, -, -, hp, -⟩ := exec_keeps hv
    obtain ⟨-, -, -, hp', -⟩ := h.frame
    exact hp'.trans hp
  | called c op hi h =>
    obtain ⟨-, -, hp, -⟩ := h.frame
    exact hp
  | finished c p d o hi h => subst h; rfl

/-- Settles O56: only a call can change `LIFE`, and the moves of a call are those of `LifeMove`. -/
theorem lifecycleMovesForwardOnly : Obligations.LifecycleMovesForwardOnly := by
  intro s t h hne
  cases step_effect h with
  | idle hi h => obtain rfl | rfl := h <;> exact absurd rfl hne
  | transaction i hi h =>
    obtain ⟨hm, hm', -⟩ := exec_keeps h
    exact absurd (hm'.trans hm.symm) hne
  | moved c i v hi hv h =>
    obtain ⟨hm, hm', -⟩ := exec_keeps hv
    obtain ⟨-, -, hl, -⟩ := h.frame
    exact absurd (hl.trans (hm'.trans hm.symm)) hne
  | finished c p d o hi h => subst h; exact absurd rfl hne
  | called c op hi h =>
    refine ⟨c, op, hi, ?_⟩
    obtain hl | hl := h.life
    · exact absurd hl hne
    · generalize t.life = l at hl hne ⊢
      cases hl with
      | failed hu => exact absurd hu.symm hne
      | mapped hu hop => exact .inl ⟨hu, rfl, hop⟩
      | aborted hu hop hf => exact .inr (.inl ⟨hu, rfl, hop⟩)
      | released hu hop hf => exact .inr (.inr ⟨hu, rfl, hop⟩)

/-- A step whose input stands for no transaction touches no register (R61). -/
theorem step_noTransaction {s t : State} (hn : servedTransaction s = none) (h : step s = .next t) :
    t.fsel = s.fsel ∧ t.out = s.out ∧ t.padDraws = s.padDraws := by
  cases step_effect h with
  | idle hi h => obtain rfl | rfl := h <;> exact ⟨rfl, rfl, rfl⟩
  | transaction i hi h => cases hn.symm.trans hi
  | moved c i v hi hv h => cases hn.symm.trans hi
  | called c op hi h =>
    obtain ⟨hf, ho, -, hd⟩ := h.frame
    exact ⟨hf, ho, hd⟩
  | finished c p d o hi h => subst h; exact ⟨rfl, rfl, rfl⟩

/-- A step whose input stands for a transaction performs it, and leaves the registers and the answer as that does. -/
theorem step_servedTransaction {s t : State} {i : Instr} (hi : servedTransaction s = some i) (h : step s = .next t) :
    ∃ u, exec i s.taken = .next u ∧
      t.fsel = u.fsel ∧ t.out = u.out ∧ t.reply = u.reply ∧ t.padDraws = u.padDraws := by
  cases step_effect h with
  | idle hn h => cases hi.symm.trans hn
  | transaction j hj h =>
    cases hi.symm.trans hj
    exact ⟨t, h, rfl, rfl, rfl, rfl⟩
  | moved c j v hj hv h =>
    cases hi.symm.trans hj
    obtain ⟨hf, ho, -, -, hr, hd⟩ := h.frame
    exact ⟨v, hv, hf, ho, hr, hd⟩
  | called c op hc h => cases hi.symm.trans (servedTransaction_call hc)
  | finished c p d o hn h => cases hi.symm.trans hn

/-- Settles O59, by whether the input stands for a transaction; a call does not. -/
theorem registersMoveOnlyByOneTransaction : Obligations.RegistersMoveOnlyByOneTransaction := by
  constructor
  · intro s t h
    split
    · next i hi => exact step_servedTransaction hi h
    · next hn => exact step_noTransaction hn h
  · intro s t c op rest hs h
    obtain ⟨hf, ho, -⟩ := step_noTransaction (servedTransaction_call (by rw [hs]; rfl)) h
    exact ⟨hf, ho⟩

/-- A caller with nothing in progress begins the operation it calls (R60). -/
theorem step_call_idle {s : State} {c : Nat} {op : Op} {rest : List Input} (hs : s.inputs = .call c op :: rest)
    (hc : Idle c s) : step s = runOp c op (s.accept rest) := by
  rw [step_cons hs, serve, beginOp, accept_calls, hc]

/-- Settles O50: both calls ask for the mapping before they look at the buffer. -/
theorem surfaceNeedsTheMapping : Obligations.SurfaceNeedsTheMapping := by
  intro s c rest hl hc
  have hl' : (s.accept rest).life ≠ .mapped := hl
  exact ⟨fun hs => (step_call_idle hs hc).trans (whenMapped_outside hl' _),
    fun _ hs => (step_call_idle hs hc).trans (whenMapped_outside hl' _)⟩

end Sys2Proof.Machine
end

section
/-! PROOFS. The invariant (R44, R66, R151, R175): it holds at reset, each update of the state keeps it, and so does a
step. -/

namespace Sys2Proof.Machine

/-- The invariant reads only the function-select words, `LIFE`, the parameters and the operations in progress. -/
theorem Inv.congr {s t : State} (h : Inv s) (hf : t.fsel = s.fsel) (hl : t.life = s.life) (hp : t.params = s.params)
    (hc : t.calls = s.calls) : Inv t where
  reserved n := by rw [hf]; exact h.reserved n
  sorted := by rw [CallsSorted, hc]; exact h.sorted
  flight := by rw [FlightOnlyMapped, someInFlight, hc, hl]; exact h.flight
  mask := by rw [PendingMaskIsWoRead, hc, hp]; exact h.mask

/-- A written function-select word has bits 31:30 as 0, the others keep theirs (R32). -/
theorem Inv.setFsel {s : State} (h : Inv s) (n : Fin 4) (d : Word) : Inv (s.setFsel n d) where
  reserved m := by
    simp only [setFsel_fsel, Fin.getElem_fin, Vector.getElem_set]
    split
    · exact extractLsb'_reservedMask d
    · exact h.reserved m
  sorted := h.sorted
  flight := h.flight
  mask := h.mask

theorem BusEffect.inv {s t : State} (h : Inv s) (e : BusEffect s t) : Inv t := by
  cases e with
  | answered v ht => subst ht; exact h.congr rfl rfl rfl rfl
  | sampled ht => subst ht; exact h.congr rfl rfl rfl rfl
  | wroteFsel n d ht => subst ht; exact (h.setFsel n d).congr rfl rfl rfl rfl
  | wroteOut v ht => subst ht; exact h.congr rfl rfl rfl rfl
  | dropped ht => subst ht; exact h.congr rfl rfl rfl rfl

/-- Some operation is in flight when one in the list is (R151). -/
theorem someInFlight_iff {s : State} : someInFlight s = true ↔ ∃ c a, (c, a) ∈ s.calls ∧ activityInFlight a = true := by
  simp [someInFlight]

/-- An operation that ends takes nothing with it that the invariant needs. -/
theorem Inv.dropCall {s : State} (h : Inv s) (c : Nat) : Inv (s.setCalls (dropCall c s.calls)) where
  reserved := h.reserved
  sorted := dropCall_sorted c h.sorted
  flight hf := by
    obtain ⟨d, a, hmem, ha⟩ := someInFlight_iff.1 hf
    exact h.flight (someInFlight_iff.2 ⟨d, a, mem_dropCall hmem, ha⟩)
  mask d p b o m hmem := h.mask d p b o m (mem_dropCall hmem)

/-- On the mapped block an operation may be put in progress whose pending mask, if it has one, is `WO_READ`. -/
theorem Inv.putCall {s : State} (h : Inv s) (hm : s.life = .mapped) (c : Nat) {a : Activity}
    (hmask : ∀ p d o m, a = .driving p d o (.writeMask m) → m = s.params.woRead) :
    Inv (s.setCalls (putCall c a s.calls)) where
  reserved := h.reserved
  sorted := putCall_sorted c a h.sorted
  flight _ := hm
  mask d p b o m hmem := by
    obtain ⟨-, ha⟩ | hmem := mem_putCall hmem
    · exact hmask p b o m ha.symm
    · exact h.mask d p b o m hmem

/-- The invariant survives a change of `LIFE` that leaves nothing in flight outside the lifetime (R151). -/
theorem Inv.setLife {s : State} (h : Inv s) {l : Life} (hl : someInFlight s = true → l = .mapped) :
    Inv (s.setLife l) where
  reserved := h.reserved
  sorted := h.sorted
  flight := hl
  mask := h.mask

/-- An unmap asks that nothing is in flight, and before the map nothing is (R66, R151). -/
theorem LifeMove.flight {op : Op} {u : State} {l : Life} (h : Inv u) (hl : LifeMove op u l)
    (hf : someInFlight u = true) : l = .mapped := by
  cases hl with
  | failed hu => exact absurd (hu.symm.trans (h.flight hf)) (by decide)
  | mapped hu hop => rfl
  | aborted hu hop hn => exact absurd (hn.symm.trans hf) (by decide)
  | released hu hop hn => exact absurd (hn.symm.trans hf) (by decide)

/-- An operation begins before its first transaction, so it holds no mask yet. -/
theorem FreshActivity.not_writeMask {a : Activity} (ha : FreshActivity a) {p : Fin 32} {d : Bool} {o : DriveOrigin}
    {m : Word} : a ≠ .driving p d o (.writeMask m) := by
  rintro rfl
  cases ha

theorem OpEffect.inv {c : Nat} {op : Op} {u t : State} (h : Inv u) (e : OpEffect c op u t) : Inv t := by
  cases e with
  | returned b r ht => subst ht; exact (h.dropCall c).congr rfl rfl rfl rfl
  | began b a hm ha ht =>
    subst ht
    exact (h.putCall hm c fun _ _ _ _ e => absurd e ha.not_writeMask).congr rfl rfl rfl rfl
  | lifecycle l k r hl ht => subst ht; exact ((h.setLife (hl.flight h)).dropCall c).congr rfl rfl rfl rfl

/-- The mask an operation goes on with is the `WO_READ` its transaction answered, and the transaction left the
parameters alone. -/
theorem AfterTransaction.inv {c : Nat} {u v t : State} (h : Inv v) (hm : v.life = .mapped) (hp : v.params = u.params)
    (e : AfterTransaction c u v t) : Inv t := by
  cases e with
  | ended r ht => subst ht; exact (h.dropCall c).congr rfl rfl rfl rfl
  | wentOn p d o stage hs ht =>
    subst ht
    refine h.putCall hm c fun p' d' o' m e => ?_
    cases e
    rw [hp]
    exact hs m rfl

theorem exec_inv {i : Instr} {s t : State} (h : Inv s) (e : exec i s = .next t) : Inv t :=
  (exec_next e).2.inv h

/-- Settles O54: each effect of a step is made of updates that keep the invariant. -/
theorem everyStepKeepsTheInvariant : Obligations.EveryStepKeepsTheInvariant := by
  intro s t h hstep
  have htaken : Inv s.taken := h.congr rfl rfl rfl rfl
  cases step_effect hstep with
  | idle hi ht => obtain rfl | rfl := ht <;> assumption
  | transaction i hi ht => exact exec_inv htaken ht
  | moved c i v hi hv ht =>
    obtain ⟨-, hm, -, hp, -⟩ := exec_keeps hv
    exact ht.inv (exec_inv htaken hv) hm hp
  | called c op hi ht => exact ht.inv htaken
  | finished c p d o hi ht => subst ht; exact (h.dropCall c).congr rfl rfl rfl rfl

/-- Settles O53: reset masks bits 31:30 away, and no operation is in progress. -/
theorem invariantHoldsAtReset : Obligations.InvariantHoldsAtReset := by
  intro params resetFsel resetOut
  refine ⟨fun n => ?_, .nil, fun h => ?_, fun c p d o m h => ?_⟩
  · simp only [State.resetWith, Fin.getElem_fin, Vector.getElem_map]
    exact extractLsb'_reservedMask _
  · cases h
  · cases h

end Sys2Proof.Machine
end

section
/-! PROOFS. The window and the word an access names (R50, R51, R58), runs of plain writes (R63), callers out of turn
(R60, R61), and what stands still outside the lifetime of the mapping (R40, R66). -/

namespace Sys2Proof.Machine

/-- The byte offset of a word inside the window, as an address difference and as the record's lanes (R51, R81). -/
theorem ofNat_four_mul_woff (woff : WordOffset) : (BitVec.ofNat 12 (4 * woff.toNat) : ByteOffset) = woff ++ 0#2 := by
  apply BitVec.eq_of_toNat_eq
  have := woff.isLt
  simp only [BitVec.toNat_ofNat, BitVec.toNat_append, Nat.shiftLeft_eq, Nat.zero_mod, Nat.or_zero]
  omega

theorem recordOfAccess_aligned (p : Params) (write : Bool) (woff : WordOffset) (data : Word) :
    recordOfAccess p write (p.gpioBase + 4 * woff.toNat) data =
      some (BitVec.ofBool write ++ (woff ++ 0#2 : ByteOffset) ++ data) := by
  have := woff.isLt
  rw [recordOfAccess, if_pos (by simp only [blockBytes]; omega), Nat.add_sub_cancel_left, ofNat_four_mul_woff]

theorem recordOfAccess_outside {p : Params} {addr : Nat} (h : addr < p.gpioBase ∨ p.gpioBase + 4096 ≤ addr)
    (write : Bool) (data : Word) : recordOfAccess p write addr data = none :=
  if_neg (by simp only [blockBytes]; omega)

/-- The data of a read does not reach the instruction (R80): only the rows of a write carry data, and their headers all
have bit 12 set. -/
theorem decodeRecord_read_data {h : Header} (hw : h.getLsbD 12 = false) (d e : Word) :
    decodeRecord (h ++ d) = decodeRecord (h ++ e) := by
  have not_write (g : Header) (hg : g.getLsbD 12 = true) : h ≠ g := by
    rintro rfl
    cases hw.symm.trans hg
  have masked_not_write : h &&& 0x1003#13 ≠ 0x1000#13 := by
    intro hm
    have hbit := congrArg (BitVec.getLsbD · 12) hm
    cases hw.symm.trans (by simpa using hbit)
  have masked_read : h &&& 0x1000#13 = 0#13 :=
    (BitVec.and_twoPow h 12).trans (by rw [hw]; rfl)
  simp [decodeRecord, recordHeader_append, recordWoff, recordBoff_append, not_write, masked_not_write, masked_read]

/-- Twelve bits with a 0 before them have bit 12 clear. -/
theorem readHeader_getLsbD (b : ByteOffset) : (0#1 ++ b : Header).getLsbD 12 = false := by
  rw [BitVec.getLsbD_append]
  rfl

/-- The record of an access at a word's address decodes as the driver's own read or write of that word (R51, R81). -/
theorem decodeRecord_access (write : Bool) (woff : WordOffset) (data : Word) :
    decodeRecord (BitVec.ofBool write ++ (woff ++ 0#2 : ByteOffset) ++ data) =
      decodeRecord (if write then wr32 woff data else rd32 woff) := by
  have record (w : BitVec 1) (d : Word) : (w ++ (woff ++ 0#2 : ByteOffset) ++ d : Record) = w ++ woff ++ 0#2 ++ d :=
    congrArg (fun h : Header => (h ++ d : Record)) (BitVec.append_assoc (x₁ := w) (x₂ := woff) (x₃ := 0#2)).symm
  cases write with
  | false => exact (decodeRecord_read_data (readHeader_getLsbD _) data 0).trans (congrArg decodeRecord (record 0#1 0))
  | true => exact congrArg decodeRecord (record 1#1 data)

/-- Settles O10: a word's address lies in the window and its record is that word's; one outside has no record. -/
theorem physicalAddressNamesTheWord : Obligations.PhysicalAddressNamesTheWord := by
  constructor
  · intro s write woff data rest hs
    have hr := recordOfAccess_aligned s.params write woff data
    rw [step_cons hs, serve, accept_params, hr]
    exact congrArg (exec · _) (decodeRecord_access write woff data)
  · intro s write addr data rest hs h
    rw [step_cons hs, serve, accept_params, recordOfAccess_outside h]

/-- A set or clear write with a 0 at a pin completes and leaves the pin's latch bit and every mode (R63, R119, R121). -/
theorem exec_sparesPin {p : Fin 32} {i : Instr} {s : State} (hm : s.life = .mapped) (hi : SparesPin p i) :
    ∃ t, exec i s = .next t ∧ t.out[p] = s.out[p] ∧ t.fsel = s.fsel ∧ t.life = .mapped := by
  obtain ⟨d, hd, hi⟩ := hi
  have hd : d[p.val] = false := hd
  obtain rfl | rfl := hi
  · exact ⟨(s.setOut (s.out ||| d)).answerNothing, whenMapped_mapped hm _, by simp [hd], rfl, hm⟩
  · exact ⟨(s.setOut (s.out &&& ~~~d)).answerNothing, whenMapped_mapped hm _, by simp [hd], rfl, hm⟩

/-- Settles O25, by induction on the list of writes. -/
theorem plainWritesLeaveOtherPinsAlone : Obligations.PlainWritesLeaveOtherPinsAlone := by
  intro p l
  induction l with
  | nil => exact fun s hm _ => ⟨s, rfl, rfl, rfl, hm⟩
  | cons i l ih =>
    intro s hm hl
    obtain ⟨hi, hl⟩ := List.forall_mem_cons.1 hl
    obtain ⟨u, hu, ho, hf, hm'⟩ := exec_sparesPin hm hi
    obtain ⟨t, ht, ho', hf', hm''⟩ := ih u hm' hl
    exact ⟨t, by rw [runTransactions, hu, andThen_next, ht], ho'.trans ho, hf'.trans hf, hm''⟩

/-- Settles O57: the transaction a step performs needs the mapping, and a step without one touches no register. -/
theorem registersStandStillOutsideTheLifetime : Obligations.RegistersStandStillOutsideTheLifetime := by
  intro s t h hl
  cases hi : servedTransaction s with
  | none => exact step_noTransaction hi h
  | some i =>
    obtain ⟨u, hu, -⟩ := step_servedTransaction hi h
    obtain ⟨hm, -⟩ := exec_next hu
    exact absurd hm hl

/-- Settles O51: a caller is looked up before anything else is done for it. -/
theorem callersRunOneOperationAtATime : Obligations.CallersRunOneOperationAtATime := by
  constructor
  · intro s c op a rest hs hc
    rw [step_cons hs, serve, beginOp, accept_calls, hc]
  · intro s c rest hs hc
    rw [step_cons hs, serve, resumeCall, accept_calls, hc]
    rfl

/-- A move of a caller whose operation has a transaction left performs it first (R61). -/
theorem resumeCall_performs {c : Nat} {s : State} {a : Activity} {i : Instr} (hc : findCall c s.calls = some a)
    (hi : nextTransaction a = some i) : ∃ k, resumeCall c s = andThen (exec i s) k := by
  rw [resumeCall, hc]
  cases a with
  | reading woff use => cases hi; exact ⟨_, rfl⟩
  | writing woff value => cases hi; exact ⟨_, rfl⟩
  | driving p d o stage => cases stage <;> cases hi <;> exact ⟨_, rfl⟩

/-- A `drive_pin` past its last transaction updates `VIEW` and returns, whatever `LIFE` is (R182, log entry 20). -/
theorem resumeCall_finish {c : Nat} {s : State} {p : Fin 32} {d : Bool} {o : DriveOrigin}
    (hc : findCall c s.calls = some (.driving p d o .finish)) :
    resumeCall c s = returnTo c (driveResult o) (s.setView p (drivenView d)) := by
  rw [resumeCall, hc]
  rfl

/-- Settles O60: the transaction left is refused outside the lifetime, and the end of a `drive_pin` is none. -/
theorem overtakenOperationsReturnOrAreRefused : Obligations.OvertakenOperationsReturnOrAreRefused := by
  constructor
  · intro s c rest a i hs hl hc hi
    have hl' : (s.accept rest).life ≠ .mapped := hl
    obtain ⟨k, hk⟩ := resumeCall_performs (s := s.accept rest) hc hi
    rw [step_cons hs, serve, hk, noTransactionOutsideTheLifetime _ i hl', andThen_refused]
  · intro s c rest p d o hs hc
    rw [step_cons hs, serve, resumeCall_finish (s := s.accept rest) hc]
    cases o <;> rfl

end Sys2Proof.Machine
end

section
/-! PROOFS. Every record has the one instruction R83 names for it: the round trip over the bytes and both directions
between records and instructions (R80 to R83). -/

namespace Sys2Proof.Machine

/-- Settles O1: the six bytes hold the record whatever follows, and the record holds the instruction. -/
theorem decodeEncodeRoundTrip : Obligations.DecodeEncodeRoundTrip := by
  intro i rest hi
  rw [decode, encode, recordOfBytes_bytesOfRecord]
  exact congrArg (fun j => Except.ok (j, rest)) (decodeRecord_encodeRecord hi)

/-- The instruction `i` is what R83 names a record of header `h` and data `d`, whose data counts for a write only (R80). -/
structure NamedBy (h : Header) (d : Word) (i : Instr) : Prop where
  mnemonic : tableMnemonic h = some (instrMnemonic i)
  wf : i.WellFormed
  header : instrHeader i = h
  data : instrData i = if h.getLsbD 12 then d else 0

/-- The instructions of rows 1 to 24 of R83 in the order of the table, each write with the data `d`. -/
def exactInstrs (d : Word) : List Instr :=
  [.rdGpfsel0, .wrGpfsel0 d, .rdGpfsel1, .wrGpfsel1 d, .rdGpfsel2, .wrGpfsel2 d, .rdGpfsel3, .wrGpfsel3 d,
   .rdGpset0, .wrGpset0 d, .rdGpclr0, .wrGpclr0 d, .rdGplev0, .wrGplev0 d,
   .rdGpfsel4, .wrGpfsel4 d, .rdGpfsel5, .wrGpfsel5 d, .rdGpset1, .wrGpset1 d, .rdGpclr1, .wrGpclr1 d,
   .rdGplev1, .wrGplev1 d]

/-- Row by row, the exact part of the table is that of these instructions. -/
theorem exactRows_eq_map (d : Word) :
    exactRows = (exactInstrs d).map fun i => (instrMnemonic i, instrHeader i, 0x1FFF#13) := rfl

theorem exactInstrs_wf_data (d : Word) :
    ∀ i ∈ exactInstrs d, i.WellFormed ∧ instrData i = if (instrHeader i).getLsbD 12 then d else 0 := by
  simp [exactInstrs, Instr.WellFormed, Instr.wf, instrHeader, instrData]

/-- No exact row hides another one. -/
theorem tableMnemonic_exact : ∀ row ∈ exactRows, tableMnemonic row.2.1 = some row.1 := by decide

theorem namedBy_exact {row : String × Header × Header} (hrow : row ∈ exactRows) (d : Word) :
    ∃ i, NamedBy row.2.1 d i := by
  have hname := tableMnemonic_exact row hrow
  rw [exactRows_eq_map d] at hrow
  obtain ⟨i, hi, rfl⟩ := List.mem_map.1 hrow
  obtain ⟨hwf, hdata⟩ := exactInstrs_wf_data d i hi
  exact ⟨i, hname, hwf, rfl, hdata⟩

/-- The aligned words no exact row names are the unnamed ones (R134, R135). -/
theorem namedHeader_exact :
    ∀ w : BitVec 1, ∀ woff ∈ namedWoffs, ∃ row ∈ exactRows, row.2.1 = (w ++ woff ++ 0#2 : Header) := by
  decide

/-- A header no exact row has is named by the first catch-all row that fits, as `decodeRecord_catchAll` says of records. -/
theorem tableMnemonic_catchAll {h : Header} (hne : ∀ row ∈ exactRows, h ≠ row.2.1) :
    tableMnemonic h =
      if h &&& 0x1003#13 = 0x0000#13 then some "RD.UNNAMED"
      else if h &&& 0x1003#13 = 0x1000#13 then some "WR.UNNAMED"
      else if h &&& 0x1000#13 = 0x0000#13 then some "RD.MISALIGNED"
      else if h &&& 0x1000#13 = 0x1000#13 then some "WR.MISALIGNED"
      else none := by
  have hmask : ∀ row ∈ exactRows, row.2.2 = BitVec.allOnes 13 := by decide
  have hnone : (exactRows.find? fun row => h &&& row.2.2 == row.2.1) = none := by
    refine List.find?_eq_none.2 fun row hrow => ?_
    rw [hmask row hrow, BitVec.and_allOnes, beq_iff_eq]
    exact hne row hrow
  show ((exactRows ++ decodeTableCatchAll).find? _).map _ = _
  rw [List.find?_append, hnone, Option.none_or, decodeTableCatchAll]
  split_ifs <;> simp_all

/-- A word offset between a 0 and a lane of 0 has bit 12 clear. -/
theorem readHeaderWord_getLsbD (woff : WordOffset) : (0#1 ++ woff ++ 0#2 : Header).getLsbD 12 = false := by
  rw [BitVec.getLsbD_append, BitVec.getLsbD_append]
  rfl

theorem namedBy_unnamed (w : BitVec 1) {woff : WordOffset} (hw : woff ∉ namedWoffs) (d : Word) :
    ∃ i, NamedBy (w ++ woff ++ 0#2) d i := by
  have hname := tableMnemonic_catchAll (unnamedHeader_notExact w hw)
  have hwf : (!namedWoffs.contains woff) = true := by simpa using hw
  rw [alignedHeader_and_mask] at hname
  obtain rfl | rfl := BitVec.eq_zero_or_eq_one w
  · exact ⟨.rdUnnamed woff, hname, hwf, rfl, by rw [readHeaderWord_getLsbD]; rfl⟩
  · exact ⟨.wrUnnamed woff d, hname, hwf, rfl, by rw [Laws.BusFields.writeBitWord]; rfl⟩

theorem namedBy_misaligned (w : BitVec 1) {boff : ByteOffset} (hb : boff.extractLsb' 0 2 ≠ 0#2) (d : Word) :
    ∃ i, NamedBy (w ++ boff) d i := by
  have hname := tableMnemonic_catchAll (misalignedHeader_notExact w hb)
  have hwf : misalignedOffset boff = true := bne_iff_ne.2 hb
  have hread : (w ++ boff : Header) &&& 0x1003#13 ≠ 0x0000#13 := misalignedHeader_and_mask_ne w 0#1 hb
  have hwrite : (w ++ boff : Header) &&& 0x1003#13 ≠ 0x1000#13 := misalignedHeader_and_mask_ne w 1#1 hb
  rw [if_neg hread, if_neg hwrite, header_and_writeMask] at hname
  obtain rfl | rfl := BitVec.eq_zero_or_eq_one w
  · exact ⟨.rdMisaligned boff, hname, hwf, rfl, by rw [readHeader_getLsbD]; rfl⟩
  · exact ⟨.wrMisaligned boff d, hname, hwf, rfl, by rw [Laws.BusFields.writeBit]; rfl⟩

/-- R83 names every record: a header has a lane, or a word some exact row names, or an unnamed word. -/
theorem exists_namedBy (h : Header) (d : Word) : ∃ i, NamedBy h d i := by
  obtain ⟨w, boff, rfl⟩ : ∃ (w : BitVec 1) (boff : ByteOffset), h = w ++ boff :=
    ⟨_, _, (BitVec.extractLsb'_append_extractLsb' (w := 1) (len := 12)).symm⟩
  by_cases hlane : boff.extractLsb' 0 2 = 0#2
  · obtain ⟨woff, rfl⟩ : ∃ woff : WordOffset, boff = woff ++ 0#2 :=
      ⟨boff.extractLsb' 2 10, hlane ▸ (BitVec.extractLsb'_append_extractLsb' (w := 10) (len := 2)).symm⟩
    have hassoc : (w ++ (woff ++ 0#2) : Header) = w ++ woff ++ 0#2 := BitVec.append_assoc.symm
    rw [hassoc]
    by_cases hnamed : woff ∈ namedWoffs
    · obtain ⟨row, hrow, hheader⟩ := namedHeader_exact w woff hnamed
      exact hheader ▸ namedBy_exact hrow d
    · exact namedBy_unnamed w hnamed d
  · exact namedBy_misaligned w hlane d

/-- The decoder gives the instruction the table names, since the encoder undoes it up to the ignored data of a read. -/
theorem NamedBy.decodeRecord_eq {h : Header} {d : Word} {i : Instr} (hi : NamedBy h d i) :
    decodeRecord (h ++ d) = i := by
  calc decodeRecord (h ++ d)
      = decodeRecord (h ++ instrData i) := by
        rw [hi.data]
        cases hw : h.getLsbD 12 with
        | false => exact decodeRecord_read_data hw d _
        | true => rfl
    _ = decodeRecord (encodeRecord i) := by rw [encodeRecord, hi.header]
    _ = i := decodeRecord_encodeRecord hi.wf

theorem namedBy_decodeRecord (r : Record) : NamedBy (recordHeader r) (recordData r) (decodeRecord r) := by
  obtain ⟨i, hi⟩ := exists_namedBy (recordHeader r) (recordData r)
  have hdecode := hi.decodeRecord_eq
  rw [record_parts] at hdecode
  exact hdecode ▸ hi

/-- Settles O2: `namedBy_decodeRecord`, with the data of a write. -/
theorem decoderFollowsTheTable : Obligations.DecoderFollowsTheTable := by
  intro r
  obtain ⟨hname, hwf, hheader, hdata⟩ := namedBy_decodeRecord r
  exact ⟨hname, hwf, hheader, fun hw => hdata.trans (if_pos hw)⟩

/-- Settles O3: header and data of the instruction a record decodes to are those R83 names. -/
theorem encodingADecodedRecordRestoresIt : Obligations.EncodingADecodedRecordRestoresIt := by
  intro r
  obtain ⟨-, -, hheader, hdata⟩ := namedBy_decodeRecord r
  rw [encodeRecord, hheader, hdata]
  rfl

/-- Settles O4, by running the decoder on the twelve records. -/
theorem sampleRecordsDecode : Obligations.SampleRecordsDecode := by
  unfold Obligations.SampleRecordsDecode
  decide

end Sys2Proof.Machine
end

section
/-! PROOFS. The pin-index decoder: its table, its masks, and the pins it is defined for (R84 to R89). -/

namespace Sys2Proof.Machine

/-- The field of a pin is what its clear mask leaves out (R86). -/
theorem not_fselClearMask (pin : Nat) : ~~~fselClearMask pin = fselPlace pin 0b111 := BitVec.not_not

/-- The field of a pin takes up the three bits from its shift upward (R86). -/
theorem fselPlace_getElem (p k : Fin 32) :
    (fselPlace p 0b111)[k] = decide (fselShift p ≤ k ∧ k.val < fselShift p + 3) := by
  rw [← not_fselClearMask, Fin.getElem_fin, BitVec.getElem_not, ← BitVec.getLsbD_eq_getElem, fselClearMask_getLsbD,
    Bool.not_not]

/-- Settles O5: the rows are finitely many, and the bits of a field follow from its shift. -/
theorem pinDecoderMatchesItsTable : Obligations.PinDecoderMatchesItsTable := by
  have hcolumns : ∀ row ∈ pinTableLow ++ pinTableHigh,
      (fselIndex row.1 = row.2.1 ∧ fselBitpos row.1 = row.2.2.1 ∧ fselShift row.1 = row.2.2.2.1) ∧
      (row.2.2.2.2.2.1 = fselShift row.1 ∧ row.2.2.2.2.1 = fselShift row.1 + 2) ∧
      fselClearMask row.1 = row.2.2.2.2.2.2.1 ∧ fselOutputBit row.1 = row.2.2.2.2.2.2.2.1 ∧
      pinBit row.1 = row.2.2.2.2.2.2.2.2 := by decide
  refine ⟨by decide, fun row hrow => ?_⟩
  obtain ⟨⟨hindex, hpos, hshift⟩, ⟨hlow, hhigh⟩, hmasks⟩ := hcolumns row hrow
  refine ⟨hindex, hpos, hshift, fun k => ?_, hmasks⟩
  rw [fselPlace_getElem, hlow, hhigh]
  exact decide_eq_decide.2 (and_congr_right' Nat.lt_succ_iff)

/-- Two words with no bit in common have the conjunction 0. -/
theorem and_eq_zero_of_disjoint {v w : Word} (h : ∀ k : Fin 32, ¬(v[k] = true ∧ w[k] = true)) : v &&& w = 0 := by
  apply BitVec.eq_of_getElem_eq
  intro k hk
  simpa using h ⟨k, hk⟩

/-- Two pins of one word have shifts that differ by at least a field (R84, R85). -/
theorem fselShift_apart {p q : Fin 32} (hne : p ≠ q) (hindex : fselIndex p = fselIndex q) :
    fselShift p + 3 ≤ fselShift q ∨ fselShift q + 3 ≤ fselShift p := by
  have hval : p.val ≠ q.val := Fin.val_ne_of_ne hne
  simp only [fselIndex, fselShift, fselBitpos] at *
  omega

theorem fselPlace_and_reserved (p : Fin 32) : fselPlace p 0b111 &&& 0xC0000000 = 0 := by
  have hreserved : ∀ k : Fin 32, (0xC0000000 : Word)[k] = decide (30 ≤ k.val) := by decide
  refine and_eq_zero_of_disjoint fun k => ?_
  have hshift := fselShift_le p
  rw [fselPlace_getElem, hreserved, decide_eq_true_iff, decide_eq_true_iff]
  omega

theorem fselPlace_disjoint {p q : Fin 32} (hne : p ≠ q) (hindex : fselIndex p = fselIndex q) :
    fselPlace p 0b111 &&& fselPlace q 0b111 = 0 := by
  refine and_eq_zero_of_disjoint fun k => ?_
  have hapart := fselShift_apart hne hindex
  rw [fselPlace_getElem, fselPlace_getElem, decide_eq_true_iff, decide_eq_true_iff]
  omega

theorem pinBit_disjoint {p q : Fin 32} (hne : p ≠ q) : pinBit p &&& pinBit q = 0 := by
  refine and_eq_zero_of_disjoint fun k ⟨hp, hq⟩ => hne ?_
  rw [pinBit_getElem, decide_eq_true_iff] at hp hq
  exact hp.symm.trans hq

/-- Settles O6: a field is the complement of its clear mask, and the shifts of one word's pins lie apart. -/
theorem pinMasksAreDisjoint : Obligations.PinMasksAreDisjoint := by
  refine ⟨fun p => ⟨?_, ?_, rfl, fselPlace_and_reserved p, Nat.div_add_mod p.val 10⟩,
    fun p q => fselPlace_disjoint, fun p q => pinBit_disjoint⟩
  · rw [← not_fselClearMask]
    exact BitVec.or_not_self _
  · rw [← not_fselClearMask]
    exact BitVec.and_not_self _

/-- Settles O7: both `admittedPin` and `pinBank` ask only whether the index is below 32. -/
theorem pinsAbove31HaveNoBankBit : Obligations.PinsAbove31HaveNoBankBit :=
  ⟨fun p => ⟨dif_pos p.isLt, if_pos p.isLt⟩, fun _ hn => ⟨dif_neg hn.not_gt, if_neg hn.not_gt⟩⟩

end Sys2Proof.Machine
end

section
/-! PROOFS. The bus transactions one by one: the record each exact row of R83 decodes, and what the transaction does on
the mapped block (R110 to R137). -/

namespace Sys2Proof.Machine

/-- A record with the header of an exact row decodes to that row's instruction, with the data where it is a write (R83). -/
theorem decodeRecord_exact {i : Instr} {d : Word} (hi : i ∈ exactInstrs d) : decodeRecord (instrHeader i ++ d) = i := by
  obtain ⟨hwf, hdata⟩ := exactInstrs_wf_data d i hi
  have hname : tableMnemonic (instrHeader i) = some (instrMnemonic i) :=
    tableMnemonic_exact _ (exactRows_eq_map d ▸ List.mem_map_of_mem hi)
  exact NamedBy.decodeRecord_eq ⟨hname, hwf, rfl, hdata⟩

theorem exec_fselRead_mapped {s : State} (hm : s.life = .mapped) (n : Fin 4) :
    exec (fselRead n) s = .next (s.answer s.fsel[n]) := by
  rw [exec_fselRead, readFsel, whenMapped_mapped hm]

theorem exec_fselWrite_mapped {s : State} (hm : s.life = .mapped) (n : Fin 4) (d : Word) :
    exec (fselWrite n d) s = .next (s.setFsel n d).answerNothing := by
  rw [exec_fselWrite, writeFsel, whenMapped_mapped hm]

theorem exec_wrGpset0_mapped {s : State} (hm : s.life = .mapped) (d : Word) :
    exec (.wrGpset0 d) s = .next (s.setOut (s.out ||| d)).answerNothing :=
  whenMapped_mapped hm _

theorem exec_wrGpclr0_mapped {s : State} (hm : s.life = .mapped) (d : Word) :
    exec (.wrGpclr0 d) s = .next (s.setOut (s.out &&& ~~~d)).answerNothing :=
  whenMapped_mapped hm _

/-- Settles O11: the four reads are the values of `fselRead`, whose answer the invariant speaks of. -/
theorem functionSelectReadsAnswerTheWord : Obligations.FunctionSelectReadsAnswerTheWord := by
  constructor
  · intro s hm
    have read := exec_fselRead_mapped hm
    exact ⟨read 0, read 1, read 2, read 3, fun reserved n => ⟨_, read n, reserved n⟩⟩
  · intro d
    have decode (n : Fin 4) : decodeRecord (instrHeader (fselRead n) ++ d) = fselRead n :=
      decodeRecord_exact (by fin_cases n <;> simp [fselRead, exactInstrs])
    exact ⟨decode 0, decode 1, decode 2, decode 3⟩

/-- Settles O12: the four writes are the values of `fselWrite`. -/
theorem functionSelectWritesReplaceTheWord : Obligations.FunctionSelectWritesReplaceTheWord := by
  intro s d hm
  have decode (n : Fin 4) : decodeRecord (instrHeader (fselWrite n d) ++ d) = fselWrite n d :=
    decodeRecord_exact (by fin_cases n <;> simp [fselWrite, exactInstrs])
  have write (n : Fin 4) := exec_fselWrite_mapped hm n d
  exact ⟨decode 0, decode 1, decode 2, decode 3, write 0, write 1, write 2, write 3⟩

/-- Settles O13: both reads are `readWriteOnly`, which answers the parameter. -/
theorem writeOnlyReadsAnswerWoRead : Obligations.WriteOnlyReadsAnswerWoRead := by
  intro s d hm
  exact ⟨decodeRecord_exact (i := .rdGpset0) (by simp [exactInstrs]),
    decodeRecord_exact (i := .rdGpclr0) (by simp [exactInstrs]), whenMapped_mapped hm _, whenMapped_mapped hm _⟩

/-- Settles O14: the words are those of `setLatch` and `clearLatch`, read bit by bit. -/
theorem setAndClearActOnTheLatch : Obligations.SetAndClearActOnTheLatch := by
  intro s d hm
  refine ⟨decodeRecord_exact (i := .wrGpset0 d) (by simp [exactInstrs]),
    decodeRecord_exact (i := .wrGpclr0 d) (by simp [exactInstrs]),
    exec_wrGpset0_mapped hm d, exec_wrGpclr0_mapped hm d, fun p => ?_, fun p => ?_⟩
  · by_cases hd : d[p.val] = true <;> simp [hd]
  · by_cases hd : d[p.val] = true <;> simp [hd]

/-- Where the block drives every pin no bit of the level word is drawn (R122). -/
theorem levelWord_allOutputs {s : State} (h : ∀ p : Fin 32, fselField s (fieldPin p) = 0b001#3) (pad : Word) :
    levelWord s pad = s.out := by
  refine BitVec.eq_of_getElem_eq fun k hk => ?_
  exact (levelWord_getElem s pad ⟨k, hk⟩).trans (if_pos (h ⟨k, hk⟩))

/-- Settles O15: the answer is the level word of this read's draw. -/
theorem levelReadAnswersLatchOrDraw : Obligations.LevelReadAnswersLatchOrDraw := by
  constructor
  · exact fun d => decodeRecord_exact (i := .rdGplev0) (by simp [exactInstrs])
  · intro s hm
    exact ⟨levelWord s (Config.padDraw s.padDraws), whenMapped_mapped hm _, levelWord_getElem s _,
      fun h => levelWord_allOutputs h _⟩

/-- Settles O16: `dropWrite` changes the reply only. -/
theorem levelWriteIsDropped : Obligations.LevelWriteIsDropped := by
  intro s d hm
  exact ⟨decodeRecord_exact (i := .wrGplev0 d) (by simp [exactInstrs]), whenMapped_mapped hm _⟩

/-- On the mapped block a transaction without a meaning is refused for its own reason (R124 to R137). -/
theorem noMeaning_mapped {s : State} (hm : s.life = .mapped) (r : Refusal) : noMeaning r s = .refused r :=
  whenMapped_mapped hm _

/-- Settles O17: rows 15 to 24 of R83 are exact rows, and each arm is `noMeaning` with the register's name. -/
theorem outOfScopeRegistersAreRefused : Obligations.OutOfScopeRegistersAreRefused := by
  intro s d hm
  have decode (i : Instr) (hi : i ∈ exactInstrs d) := decodeRecord_exact hi
  have refused (r : OutOfScopeReg) := noMeaning_mapped hm (.outOfScopeRegister r)
  exact ⟨decode .rdGpfsel4 (by simp [exactInstrs]), decode (.wrGpfsel4 d) (by simp [exactInstrs]),
    decode .rdGpfsel5 (by simp [exactInstrs]), decode (.wrGpfsel5 d) (by simp [exactInstrs]),
    decode .rdGpset1 (by simp [exactInstrs]), decode (.wrGpset1 d) (by simp [exactInstrs]),
    decode .rdGpclr1 (by simp [exactInstrs]), decode (.wrGpclr1 d) (by simp [exactInstrs]),
    decode .rdGplev1 (by simp [exactInstrs]), decode (.wrGplev1 d) (by simp [exactInstrs]),
    refused .gpfsel4, refused .gpfsel4, refused .gpfsel5, refused .gpfsel5, refused .gpset1, refused .gpset1,
    refused .gpclr1, refused .gpclr1, refused .gplev1, refused .gplev1⟩

/-- Settles O18: the twelve offsets are `namedWoffs`, so the records fall through to rows 25 and 26. -/
theorem unnamedWordsAreRefused : Obligations.UnnamedWordsAreRefused := by
  intro s woff d hm hw
  exact ⟨decodeRecord_unnamed 0#1 hw 0, decodeRecord_unnamed 1#1 hw d, noMeaning_mapped hm _, noMeaning_mapped hm _⟩

/-- Settles O19: every other row has lane 0, so the records fall through to rows 27 and 28. -/
theorem misalignedAccessesAreRefused : Obligations.MisalignedAccessesAreRefused := by
  intro s boff d hm hb
  exact ⟨decodeRecord_misaligned 0#1 hb d, decodeRecord_misaligned 1#1 hb d, noMeaning_mapped hm _,
    noMeaning_mapped hm _⟩

end Sys2Proof.Machine
end

section
/-! PROOFS. What a completed transaction leaves unchanged (R138), and how set and clear writes compose (R139). -/

namespace Sys2Proof.Machine

/-- The fields that no transaction writes, whichever it is (R138). -/
theorem BusEffect.frame {s t : State} (e : BusEffect s t) :
    t.life = s.life ∧ t.cmdBuf = s.cmdBuf ∧ t.view = s.view ∧ t.params = s.params ∧ t.returned = s.returned ∧
      t.calls = s.calls ∧ t.inputs = s.inputs ∧ t.hostDraws = s.hostDraws := by
  cases e <;> subst_vars <;> exact ⟨rfl, rfl, rfl, rfl, rfl, rfl, rfl, rfl⟩

/-- `BusEffect` with the transactions that have each effect. -/
inductive InstrEffect (i : Instr) (s t : State) : Prop where
  | answered (v : Word) (hi : (instrHeader i).getLsbD 12 = false) (h : t = s.answer v)
  | sampled (v : Word) (hi : i = .rdGplev0) (h : t = s.countPadDraw.answer v)
  | wroteFsel (n : Fin 4) (d : Word) (hi : i = fselWrite n d) (h : t = (s.setFsel n d).answerNothing)
  | wroteOut (d v : Word) (hi : i = .wrGpset0 d ∨ i = .wrGpclr0 d) (h : t = (s.setOut v).answerNothing)
  | dropped (d : Word) (hi : i = .wrGplev0 d) (h : t = s.answerNothing)

theorem exec_effect {i : Instr} {s t : State} (h : exec i s = .next t) : InstrEffect i s t := by
  cases i
  case rdGpfsel0 | rdGpfsel1 | rdGpfsel2 | rdGpfsel3 | rdGpset0 | rdGpclr0 =>
    obtain ⟨-, h⟩ := whenMapped_eq_next.1 h
    exact .answered _ rfl (Host.Outcome.next.inj h).symm
  case rdGplev0 =>
    obtain ⟨-, h⟩ := whenMapped_eq_next.1 h
    exact .sampled _ rfl (Host.Outcome.next.inj h).symm
  case wrGpfsel0 | wrGpfsel1 | wrGpfsel2 | wrGpfsel3 =>
    obtain ⟨-, h⟩ := whenMapped_eq_next.1 h
    refine .wroteFsel _ _ ?_ (Host.Outcome.next.inj h).symm
    rfl
  case wrGpset0 d | wrGpclr0 d =>
    obtain ⟨-, h⟩ := whenMapped_eq_next.1 h
    exact .wroteOut d _ (by simp) (Host.Outcome.next.inj h).symm
  case wrGplev0 d =>
    obtain ⟨-, h⟩ := whenMapped_eq_next.1 h
    exact .dropped d rfl (Host.Outcome.next.inj h).symm
  all_goals
    obtain ⟨-, h⟩ := whenMapped_eq_next.1 h
    cases h

theorem fselWrite_writeBit (n : Fin 4) (d : Word) : (instrHeader (fselWrite n d)).getLsbD 12 = true := by
  fin_cases n <;> simp [fselWrite, instrHeader]

/-- Settles O21, by the effect of the transaction: each effect but a read's moves one register, and a transaction with
that effect is one the statement exempts there. -/
theorem busTransactionFrame : Obligations.BusTransactionFrame := by
  intro s t i h
  obtain ⟨-, e⟩ := exec_next h
  refine ⟨e.frame, ?_⟩
  cases exec_effect h with
  | answered v hi h =>
    subst h
    exact ⟨fun _ _ => rfl, fun _ => rfl, fun _ => rfl, by rw [hi]; rfl⟩
  | sampled v hi h =>
    subst h hi
    exact ⟨fun _ _ => rfl, fun _ => rfl, fun hne => absurd rfl hne, rfl⟩
  | wroteFsel n d hi h =>
    subst h hi
    refine ⟨fun m hm => ?_, fun _ => rfl, fun _ => rfl, by rw [fselWrite_writeBit]; rfl⟩
    have hne : n ≠ m := fun hnm => hm d (hnm ▸ rfl)
    exact Vector.getElem_set_ne n.isLt m.isLt (Fin.val_ne_of_ne hne)
  | wroteOut d v hi h =>
    subst h
    refine ⟨fun _ _ => rfl, fun hne => ?_, fun _ => rfl, by obtain rfl | rfl := hi <;> simp [instrHeader]⟩
    obtain ⟨hset, hclear⟩ := hne d
    exact absurd hi (not_or.2 ⟨hset, hclear⟩)
  | dropped d hi h =>
    subst h hi
    exact ⟨fun _ _ => rfl, fun _ => rfl, fun _ => rfl, by simp [instrHeader]⟩

/-- Clearing bits a word does not have leaves it as it is. -/
theorem and_not_of_disjoint {a b : Word} (h : a &&& b = 0) : a &&& ~~~b = a := by
  calc a &&& ~~~b
      = (a &&& b) ||| (a &&& ~~~b) := by rw [h]; exact BitVec.zero_or.symm
    _ = a &&& (b ||| ~~~b) := BitVec.and_or_distrib_left.symm
    _ = a := by rw [BitVec.or_not_self, BitVec.and_allOnes]

/-- Settles O24: two latch writes are one write of the latch word their formulas compose to, so each law is one of
bitwise logic. -/
theorem setAndClearLaws : Obligations.SetAndClearLaws := by
  intro s a b hm
  have hmapped (v : Word) : (s.setOut v).answerNothing.life = .mapped := hm
  have then_set (v d : Word) :
      exec (.wrGpset0 d) (s.setOut v).answerNothing = .next (s.setOut (v ||| d)).answerNothing :=
    exec_wrGpset0_mapped (hmapped v) d
  have then_clear (v d : Word) :
      exec (.wrGpclr0 d) (s.setOut v).answerNothing = .next (s.setOut (v &&& ~~~d)).answerNothing :=
    exec_wrGpclr0_mapped (hmapped v) d
  simp only [exec_wrGpset0_mapped hm, exec_wrGpclr0_mapped hm, andThen_next, then_set, then_clear]
  refine ⟨?_, ?_, ?_, ?_, rfl, rfl, fun h => ?_⟩
  · rw [BitVec.or_assoc]
  · rw [BitVec.or_assoc, BitVec.or_comm b a]
  · rw [BitVec.and_assoc, BitVec.not_or]
  · rw [BitVec.and_assoc, BitVec.and_comm (~~~b) (~~~a), BitVec.not_or]
  · rw [BitVec.and_or_distrib_right, and_not_of_disjoint h]

end Sys2Proof.Machine
end

section
/-! PROOFS. The Register Map operations (R150 to R154): what the call checks, the one transaction a caller performs with
nobody between, and the moves of `LIFE`. -/

namespace Sys2Proof.Machine

/-- A caller with nothing in progress that returns leaves the operations in progress as they are. -/
theorem returnTo_idle {c : Nat} {s : State} (hc : Idle c s) (r : Result) :
    returnTo c r s = .next (s.setReturned (some (c, r))) := by
  rw [returnTo, dropCall_idle hc]
  rfl

theorem andThen_assoc (o : Outcome) (k l : State → Outcome) :
    andThen (andThen o k) l = andThen o fun s => andThen (k s) l := by
  cases o <;> rfl

theorem andThen_congr {o : Outcome} {k l : State → Outcome} (h : ∀ t, o = .next t → k t = l t) :
    andThen o k = andThen o l := by
  cases o with
  | next t => exact h t rfl
  | fault f => rfl
  | refused r => rfl

/-- The transaction of an operation that began from nothing, and its return, leave the operations in progress as they
were before the call (R61). -/
theorem exec_then_return {c : Nat} {s : State} (hc : Idle c s) (i : Instr) (a : Activity) (r : Word → Result) :
    andThen (exec i (s.setCalls (putCall c a s.calls))) (fun t => returnTo c (r t.replyWord) t) =
      andThen (exec i s) fun t => .next (t.setReturned (some (c, r t.replyWord))) := by
  rw [exec_setCalls, andThen_assoc]
  refine andThen_congr fun t ht => ?_
  obtain ⟨-, -, hcalls, -⟩ := exec_keeps ht
  rw [andThen_next, returnTo, setCalls_calls, dropCall_putCall hc, ← hcalls]
  rfl

/-- An operation that leaves one transaction and its return to the caller's next move is, with nobody between, that
transaction and that return. -/
theorem runSteps_oneTransaction {s : State} {c : Nat} {op : Op} {a : Activity} {i : Instr} {r : Word → Result}
    (hc : Idle c s) (hop : runOp c op (s.accept [.resume c]) = proceed c a (s.accept [.resume c]))
    (hmove : ∀ u : State, findCall c u.calls = some a →
      resumeCall c u = andThen (exec i u) fun t => returnTo c (r t.replyWord) t) :
    runSteps 2 (s.withInputs (aloneInputs c op 1)) =
      andThen (exec i (s.accept [])) fun t => .next (t.setReturned (some (c, r t.replyWord))) := by
  have begun : step (s.withInputs (aloneInputs c op 1)) = proceed c a (s.accept [.resume c]) :=
    (step_call_idle (s := s.withInputs (aloneInputs c op 1)) rfl hc).trans hop
  have moved := hmove ((s.accept []).setCalls (putCall c a (s.accept []).calls)) (findCall_putCall_self c a s.calls)
  calc runSteps 2 (s.withInputs (aloneInputs c op 1))
      = andThen (proceed c a (s.accept [.resume c])) (runSteps 1) := by rw [runSteps, begun]
    _ = andThen (resumeCall c ((s.accept []).setCalls (putCall c a (s.accept []).calls))) .next :=
      runSteps_resume 0 c rfl
    _ = andThen (exec i (s.accept [])) fun t => .next (t.setReturned (some (c, r t.replyWord))) := by
      rw [moved, exec_then_return (s := s.accept []) hc, andThen_assoc]
      rfl

theorem resumeCall_reading {c : Nat} {u : State} {woff : WordOffset} {use : ReadUse}
    (hc : findCall c u.calls = some (.reading woff use)) : resumeCall c u = stepReading c woff use u := by
  rw [resumeCall, hc]

theorem resumeCall_writing {c : Nat} {u : State} {woff : WordOffset} {v : Word}
    (hc : findCall c u.calls = some (.writing woff v)) : resumeCall c u = stepWriting c woff v u := by
  rw [resumeCall, hc]

/-- Every word offset of the window passes the bound and names its own word (R51, R152, R153). -/
theorem bound_woff (f : WordOffset → Outcome) (o : Outcome) (woff : WordOffset) :
    (if woff.toNat < blockWords then f (BitVec.ofNat 10 woff.toNat) else o) = f woff := by
  have within : woff.toNat < blockWords := woff.isLt
  rw [if_pos within, BitVec.ofNat_toNat, BitVec.setWidth_eq]

/-- An offset from `BLOCK_WORDS` up ends the operation at once (R58, R152, R153). -/
theorem bound_outOfRange {s : State} {c offset : Nat} (hc : Idle c s) (h : 1024 ≤ offset) (o : Outcome) :
    (if offset < blockWords then o else errorTo c .outOfRange s) =
      .next (s.setReturned (some (c, .err .outOfRange))) :=
  (if_neg (Nat.not_lt.2 h)).trans (returnTo_idle hc _)

theorem beginRead_woff {s : State} (hm : s.life = .mapped) (c : Nat) (woff : WordOffset) (use : ReadUse) :
    beginRead c woff.toNat use s = proceed c (.reading woff use) s :=
  (beginRead_mapped hm c woff.toNat use).trans (bound_woff (fun w => proceed c (.reading w use) s) _ woff)

theorem beginRead_outOfRange {s : State} {c offset : Nat} (hc : Idle c s) (hm : s.life = .mapped) (h : 1024 ≤ offset)
    (use : ReadUse) : beginRead c offset use s = .next (s.setReturned (some (c, .err .outOfRange))) :=
  (beginRead_mapped hm c offset use).trans (bound_outOfRange hc h _)

/-- An operation that is one read with nobody between: `RD32` of the word, then the return of what it makes of the
answer (R152, R154). -/
theorem runSteps_oneRead {s : State} {c : Nat} {op : Op} {woff : WordOffset} {use : ReadUse} (hc : Idle c s)
    (hm : s.life = .mapped) (hop : ∀ u, runOp c op u = beginRead c woff.toNat use u) :
    runSteps 2 (s.withInputs (aloneInputs c op 1)) =
      andThen (exec (decodeRecord (rd32 woff)) (s.accept [])) fun t =>
        .next (t.setReturned (some (c, readResult use t.replyWord))) :=
  have begun := (hop (s.accept [.resume c])).trans (beginRead_woff (s := s.accept [.resume c]) hm c woff use)
  runSteps_oneTransaction hc begun fun _ hu => resumeCall_reading hu

theorem opWriteWord_woff {s : State} (hm : s.life = .mapped) (c : Nat) (woff : WordOffset) (v : Word) :
    opWriteWord c woff.toNat v s = proceed c (.writing woff v) s :=
  (whenMapped_mapped hm _).trans (bound_woff (fun w => proceed c (.writing w v) s) _ woff)

theorem opWriteWord_outOfRange {s : State} {c offset : Nat} (hc : Idle c s) (hm : s.life = .mapped)
    (h : 1024 ≤ offset) (v : Word) :
    opWriteWord c offset v s = .next (s.setReturned (some (c, .err .outOfRange))) :=
  (whenMapped_mapped hm _).trans (bound_outOfRange hc h _)

theorem admittedPin_of_lt {pin : Nat} (h : pin < 32) : admittedPin pin = some ⟨pin, h⟩ :=
  (pinsAbove31HaveNoBankBit.1 ⟨pin, h⟩).1

theorem admittedPin_of_ge {pin : Nat} (h : 32 ≤ pin) : admittedPin pin = none :=
  (pinsAbove31HaveNoBankBit.2 pin h).1

/-- A bit index up to 31 leaves `get_bit` the checks of a read of the word (R154). -/
theorem opGetBit_of_lt {k : Nat} (hk : k < 32) (c offset : Nat) (s : State) :
    opGetBit c offset k s = beginRead c offset (.bit ⟨k, hk⟩) s := by
  rw [opGetBit, admittedPin_of_lt hk]

theorem opGetBit_of_ge {k : Nat} (hk : 32 ≤ k) (c offset : Nat) (s : State) :
    opGetBit c offset k s = .refused .shiftByWidth := by
  rw [opGetBit, admittedPin_of_ge hk]

/-- Settles O32: the call is the checks of `beginRead`, and the move the one read that uses the word itself. -/
theorem readWordIsOneReadOfTheWord : Obligations.ReadWordIsOneReadOfTheWord := by
  refine fun s c hc => ⟨fun offset rest hs => ?_, fun woff hm =>
    runSteps_oneRead (op := .readWord woff.toNat) (use := .word) hc hm fun _ => rfl⟩
  have called := step_call_idle hs hc
  exact ⟨fun hl => called.trans (whenMapped_outside (s := s.accept rest) hl _),
    fun hm ho => called.trans (beginRead_outOfRange (s := s.accept rest) hc hm ho _)⟩

/-- Settles O33: the call is the checks of `opWriteWord`, and the move the one write, which returns no word. -/
theorem writeWordIsOneWriteOfTheWord : Obligations.WriteWordIsOneWriteOfTheWord := by
  refine fun s c v hc => ⟨fun offset rest hs => ?_, fun woff hm => ?_⟩
  · have called := step_call_idle hs hc
    exact ⟨fun hl => called.trans (whenMapped_outside (s := s.accept rest) hl _),
      fun hm ho => called.trans (opWriteWord_outOfRange (s := s.accept rest) hc hm ho v)⟩
  · have begun := opWriteWord_woff (s := s.accept [.resume c]) hm c woff v
    exact runSteps_oneTransaction (op := .writeWord woff.toNat v) (r := fun _ => .done) hc begun fun _ hu =>
      resumeCall_writing hu

/-- Settles O34: after the check of the index the call is that of a read, the move the one read that uses the bit. -/
theorem getBitReturnsTheBitOfTheWord : Obligations.GetBitReturnsTheBitOfTheWord := by
  refine fun s c hc => ⟨fun offset k rest hs => ?_, fun woff k hm =>
    runSteps_oneRead (op := .getBit woff.toNat k) hc hm (opGetBit_of_lt k.isLt c woff.toNat)⟩
  have called := step_call_idle hs hc
  have admitted (hk : k < 32) := called.trans (opGetBit_of_lt hk c offset (s.accept rest))
  exact ⟨fun hk => called.trans (opGetBit_of_ge hk c offset _),
    fun hk hl => (admitted hk).trans (whenMapped_outside (s := s.accept rest) hl _),
    fun hk hm ho => (admitted hk).trans (beginRead_outOfRange (s := s.accept rest) hc hm ho _)⟩

theorem opMap_twice {s : State} (hl : s.life ≠ .unmapped) (c base : Nat) : opMap c base s = .refused .mapTwice :=
  if_pos hl

/-- `map` of `GPIO_BASE` from Unmapped returns what the host facility's next choice gives (R150). -/
theorem opMap_unmapped {s : State} {c : Nat} (hc : Idle c s) (hl : s.life = .unmapped) :
    opMap c s.params.gpioBase s =
      if Config.mapSucceeds s.hostDraws then
        .next ((s.countHostDraw.setLife .mapped).setReturned (some (c, .handle s.params.gpioBase)))
      else .next (s.countHostDraw.setReturned (some (c, .err .mapFailure))) := by
  rw [opMap, if_neg (not_not.2 hl), if_neg (not_not.2 rfl), tryMap]
  split
  · exact returnTo_idle (s := s.countHostDraw.setLife .mapped) hc _
  · exact returnTo_idle (s := s.countHostDraw) hc _

/-- Settles O27, by the host facility's choice. -/
theorem mapSucceedsOrFailsAndTouchesNoRegister : Obligations.MapSucceedsOrFailsAndTouchesNoRegister := by
  intro s c base rest hs hc
  have called := step_call_idle hs hc
  refine ⟨fun hl => called.trans (opMap_twice (s := s.accept rest) hl c base), ?_⟩
  rintro hl rfl
  have mapped := called.trans (opMap_unmapped (s := s.accept rest) hc hl)
  by_cases hb : Config.mapSucceeds s.hostDraws = true
  · exact ⟨.mapped, _, mapped.trans (if_pos hb), .inl ⟨rfl, rfl⟩⟩
  · refine ⟨.unmapped, _, (mapped.trans (if_neg hb)).trans ?_, .inr ⟨rfl, rfl⟩⟩
    rw [← hl]
    rfl

/-- `unmap` outside the lifetime of the mapping (R151). -/
theorem opUnmap_notMapped {s : State} (hl : s.life ≠ .mapped) (c : Nat) : opUnmap c s = .refused .unmapNotMapped := by
  rw [opUnmap, unmapBlock, if_pos hl, andThen_refused]

theorem opUnmap_inFlight {s : State} (hm : s.life = .mapped) (hf : someInFlight s = true) (c : Nat) :
    opUnmap c s = .refused .unmapInFlight := by
  rw [opUnmap, unmapBlock, if_neg (not_not.2 hm), if_pos hf, andThen_refused]

theorem opUnmap_released {s : State} {c : Nat} (hc : Idle c s) (hm : s.life = .mapped) (hf : someInFlight s = false) :
    opUnmap c s = .next ((s.setLife .destroyed).setReturned (some (c, .done))) := by
  rw [opUnmap, unmapBlock, if_neg (not_not.2 hm), if_neg (Bool.eq_false_iff.1 hf), andThen_next]
  exact returnTo_idle (s := s.setLife .destroyed) hc .done

/-- Settles O28: the three cases are those of `opUnmap`. -/
theorem unmapReleasesOnceAndTouchesNoRegister : Obligations.UnmapReleasesOnceAndTouchesNoRegister := by
  intro s c rest hs hc
  have called := step_call_idle hs hc
  exact ⟨fun hl => called.trans (opUnmap_notMapped (s := s.accept rest) hl c),
    fun hm hf => called.trans (opUnmap_inFlight (s := s.accept rest) hm hf c),
    fun hm hf => called.trans (opUnmap_released (s := s.accept rest) hc hm hf)⟩

/-- Settles O29: `activityInFlight` says it stage by stage. -/
theorem inFlightIsBetweenFirstAndLastTransaction : Obligations.InFlightIsBetweenFirstAndLastTransaction :=
  ⟨fun _ _ _ _ => ⟨rfl, rfl, rfl, rfl, rfl⟩, fun _ _ _ => ⟨rfl, rfl⟩⟩

end Sys2Proof.Machine
end

section
/-! PROOFS. The word `drive_pin` writes back to a function-select register (R174, R178), and what storing it does to the
fields of the pins (R25, R31). -/

namespace Sys2Proof.Machine

/-- Bits outside the pin's field are written back as read (R174). -/
theorem extractLsb'_configureOutput {p : Fin 32} {start len : Nat} (hlen : start + len ≤ 32)
    (hapart : start + len ≤ fselShift p ∨ fselShift p + 3 ≤ start) (t : Word) :
    (configureOutput p t).extractLsb' start len = t.extractLsb' start len := by
  refine BitVec.eq_of_getLsbD_eq fun k hk => ?_
  rw [BitVec.getLsbD_extractLsb', BitVec.getLsbD_extractLsb', configureOutput_getLsbD p t _ (by omega),
    if_neg (by omega)]

theorem fselFieldOf_pin_getLsbD (w : Word) (p : Fin 32) {j : Nat} (hj : j < 3) :
    (fselFieldOf w (fselBitpos p)).getLsbD j = w.getLsbD (fselShift p + j) := by
  rw [fselFieldOf, BitVec.getLsbD_extractLsb', decide_eq_true hj, Bool.true_and, fselShift]

theorem fselFieldOf_configureOutput_self (p : Fin 32) (t : Word) :
    fselFieldOf (configureOutput p t) (fselBitpos p) = 0b001#3 := by
  have hshift := fselShift_le p
  refine BitVec.eq_of_getLsbD_eq fun j hj => ?_
  rw [fselFieldOf_pin_getLsbD _ p hj, configureOutput_getLsbD p t _ (by omega), if_pos (by omega)]
  simp

theorem fselFieldOf_configureOutput_other {p : Fin 32} {k : Nat} (hk : k < 10) (hne : k ≠ fselBitpos p) (t : Word) :
    fselFieldOf (configureOutput p t) k = fselFieldOf t k :=
  extractLsb'_configureOutput (by omega) (by rw [fselShift]; omega) t

theorem configureOutput_reserved (p : Fin 32) (t : Word) :
    (configureOutput p t).extractLsb' 30 2 = t.extractLsb' 30 2 :=
  extractLsb'_configureOutput (by decide) (.inr (by have := fselShift_le p; omega)) t

/-- A pin that is an output already is written back as it is (R178). -/
theorem configureOutput_eq_self {p : Fin 32} {t : Word} (h : fselFieldOf t (fselBitpos p) = 0b001#3) :
    configureOutput p t = t := by
  refine BitVec.eq_of_getLsbD_eq fun k hk => ?_
  rw [configureOutput_getLsbD p t k hk]
  split
  · next hfield =>
    obtain ⟨j, rfl⟩ := Nat.exists_eq_add_of_le hfield.1
    rw [← fselFieldOf_pin_getLsbD t p (by omega), h]
    simp
  · rfl

/-- Settles O8: the pin's own field, the bits outside it, and the word whose field is `0b001` already. -/
theorem configureOutputChangesOneField : Obligations.ConfigureOutputChangesOneField :=
  fun p t => ⟨fselFieldOf_configureOutput_self p t, fun k hk => fselFieldOf_configureOutput_other k.isLt hk t,
    configureOutput_reserved p t, configureOutput_eq_self⟩

/-- The function-select register that holds a pin's field (R84). -/
def fselReg (p : Fin 32) : Fin 4 := ⟨fselIndex p, fselIndex_lt p⟩

/-- A word with bits 31:30 zero is stored as it is (R32, R177). -/
theorem and_reservedMask_eq_self {w : Word} (h : w.extractLsb' 30 2 = 0#2) : w &&& 0x3FFFFFFF#32 = w := by
  refine BitVec.eq_of_getLsbD_eq fun k hk => ?_
  rw [BitVec.getLsbD_and, reservedMask_getLsbD ⟨k, hk⟩]
  by_cases hlow : k < 30
  · simp [hlow]
  · have hbit := congrArg (BitVec.getLsbD · (k - 30)) h
    have htop : k - 30 < 2 := by omega
    have hk' : 30 + (k - 30) = k := by omega
    simp only [BitVec.getLsbD_extractLsb', htop, decide_true, Bool.true_and, hk', BitVec.getLsbD_zero] at hbit
    rw [hbit, Bool.false_and]

/-- The field of a pin is its field of the register that holds it (R25, R84, R85). -/
theorem fselField_eq (s : State) {q : Fin 40} {i : Fin 4} (hi : i.val = fselIndex q) :
    fselField s q = fselFieldOf s.fsel[i] (fselBitpos q) := by
  obtain ⟨i, hlt⟩ := i
  cases hi
  rfl

/-- Storing the written-back word in the pin's register makes the pin an output and leaves the field of every other
pin (R174, R183). -/
theorem fselField_configured {s t : State} {p : Fin 32}
    (h : t.fsel = s.fsel.set (fselReg p) (configureOutput p s.fsel[fselReg p] &&& 0x3FFFFFFF#32)) (q : Fin 40) :
    fselField t q = if q = fieldPin p then 0b001#3 else fselField s q := by
  have hpos : fselBitpos q < 10 := Nat.mod_lt _ (by decide)
  by_cases hreg : fselIndex q = fselIndex p
  · have hword : t.fsel[fselReg p] = configureOutput p s.fsel[fselReg p] &&& 0x3FFFFFFF#32 := by simp [h]
    rw [fselField_eq t (i := fselReg p) hreg.symm, fselField_eq s (i := fselReg p) hreg.symm, hword,
      fselFieldOf_reservedMask _ ⟨_, hpos⟩]
    split
    · next hq => subst hq; exact fselFieldOf_configureOutput_self p _
    · next hq =>
      refine fselFieldOf_configureOutput_other hpos (fun hsame => hq (Fin.ext ?_)) _
      show q.val = p.val
      simp only [fselIndex, fselBitpos] at hreg hsame
      omega
  · have hlt : fselIndex q < 4 := by simp only [fselIndex]; omega
    have hq : q ≠ fieldPin p := fun hq => hreg (congrArg (fun r : Fin 40 => fselIndex r) hq)
    have hword : t.fsel[fselIndex q] = s.fsel[fselIndex q] := by
      simp only [h]
      exact Vector.getElem_set_ne _ hlt (Ne.symm hreg)
    rw [if_neg hq, fselField_eq t (i := ⟨_, hlt⟩) rfl, fselField_eq s (i := ⟨_, hlt⟩) rfl]
    exact congrArg (fselFieldOf · _) hword

end Sys2Proof.Machine
end

section
/-! PROOFS. The latch word a set or clear write leaves (R37, R119, R121, R179), `read_level` (R172) and the checks of
`drive_pin` (R173). -/

namespace Sys2Proof.Machine

/-- The latch after a set write (`d` true) or a clear write of `mask` (R119, R121). -/
def latchAfter (d : Bool) (out mask : Word) : Word := if d then out ||| mask else out &&& ~~~mask

theorem latchAfter_getElem (d : Bool) (out mask : Word) (q : Fin 32) :
    (latchAfter d out mask)[q] = if mask[q] then d else out[q] := by
  cases d <;> by_cases hq : mask[q.val] = true <;> simp [latchAfter, hq]

theorem exec_latchWrite {s : State} (hm : s.life = .mapped) (d : Bool) (mask : Word) :
    exec (if d then .wrGpset0 mask else .wrGpclr0 mask) s =
      .next (s.setOut (latchAfter d s.out mask)).answerNothing := by
  cases d
  · exact exec_wrGpclr0_mapped hm mask
  · exact exec_wrGpset0_mapped hm mask

/-- The mask of step 3 or 4 of `drive_pin`, bit by bit (R175). -/
theorem or_pinBit_getElem (w : Word) (p q : Fin 32) : (w ||| pinBit p)[q] = (w[q] || decide (q = p)) := by
  rw [← pinBit_getElem p q]
  exact BitVec.getElem_or q.isLt

/-- `WO_READ` is harmless at a pin when it has a 1 at no other (R179, R183). -/
theorem and_not_pinBit_eq_zero_iff (w : Word) (p : Fin 32) :
    w &&& ~~~pinBit p = 0 ↔ ∀ q : Fin 32, q ≠ p → w[q] = false := by
  have hbit (q : Fin 32) : (w &&& ~~~pinBit p)[q] = (w[q] && !decide (q = p)) := by
    rw [← pinBit_getElem p q]
    simp
  constructor
  · intro h q hq
    have hzero := hbit q
    rw [h, decide_eq_false hq] at hzero
    simpa using hzero.symm
  · intro h
    refine BitVec.eq_of_getElem_eq fun k hk => (hbit ⟨k, hk⟩).trans ?_
    by_cases hq : (⟨k, hk⟩ : Fin 32) = p
    · simp [hq]
    · simp [h _ hq]

/-- A word with a 1 at no other pin adds nothing to `bit(p)`. -/
theorem or_pinBit_of_harmless {w : Word} {p : Fin 32} (h : w &&& ~~~pinBit p = 0) : w ||| pinBit p = pinBit p := by
  refine BitVec.eq_of_getElem_eq fun k hk => ?_
  have hor := or_pinBit_getElem w p ⟨k, hk⟩
  have hbit := pinBit_getElem p ⟨k, hk⟩
  refine hor.trans (Eq.trans ?_ hbit.symm)
  by_cases hq : (⟨k, hk⟩ : Fin 32) = p
  · simp [hq]
  · rw [(and_not_pinBit_eq_zero_iff w p).1 h _ hq, Bool.false_or]

/-- Settles O26: the write leaves `latchAfter` of `bit(p)`, and so does the OR form where `WO_READ` adds nothing. -/
theorem plainWriteOfOneBitDrivesOnePin : Obligations.PlainWriteOfOneBitDrivesOnePin := by
  intro s p d hm
  refine ⟨_, exec_latchWrite hm d (pinBit p), fun q => ?_, rfl, fun h => ?_⟩
  · have hq := latchAfter_getElem d s.out (pinBit p) q
    rw [pinBit_getElem] at hq
    simpa using hq
  · rw [or_pinBit_of_harmless h]
    rfl

theorem whenMapped_whenMapped (s : State) (o : Outcome) : whenMapped s (whenMapped s o) = whenMapped s o := by
  by_cases hm : s.life = .mapped
  · exact whenMapped_mapped hm _
  · rw [whenMapped_outside hm, whenMapped_outside hm]

/-- For an admitted pin `read_level` is the read of GPLEV0 that uses the pin's bit (R172). -/
theorem opReadLevel_admitted (c : Nat) (p : Fin 32) (s : State) :
    opReadLevel c p s = beginRead c gplev0Woff.toNat (.bit p) s := by
  rw [opReadLevel, admittedPin_of_lt p.isLt]
  exact whenMapped_whenMapped s _

/-- `read_level` with nobody between: the pin's bit of the level word of this read's draw (R122, R172). -/
theorem runSteps_readLevel {s : State} {c : Nat} (hc : Idle c s) (hm : s.life = .mapped) (p : Fin 32) :
    runSteps 2 (s.withInputs (aloneInputs c (.readLevel p) 1)) =
      .next (((s.accept []).countPadDraw.answer (levelWord s (Config.padDraw s.padDraws))).setReturned
        (some (c, .bit (levelWord s (Config.padDraw s.padDraws))[p]))) := by
  have read : exec (decodeRecord (rd32 gplev0Woff)) (s.accept []) =
      .next ((s.accept []).countPadDraw.answer (levelWord s (Config.padDraw s.padDraws))) :=
    whenMapped_mapped (s := s.accept []) hm _
  rw [runSteps_oneRead (op := .readLevel p) hc hm (opReadLevel_admitted c p), read]
  rfl

/-- Settles O35: the checks of the call, then `runSteps_readLevel`. -/
theorem readLevelReturnsLatchOrDraw : Obligations.ReadLevelReturnsLatchOrDraw := by
  refine fun s c hc => ⟨fun pin rest hs => ?_, fun p hm =>
    ⟨_, _, runSteps_readLevel hc hm p, levelWord_getElem s _ p⟩⟩
  have called := step_call_idle hs hc
  refine ⟨fun hl => called.trans (whenMapped_outside (s := s.accept rest) hl _), fun hm hpin => called.trans ?_⟩
  rw [runOp, opReadLevel, whenMapped_mapped (s := s.accept rest) hm, admittedPin_of_ge hpin]
  exact returnTo_idle (s := s.accept rest) hc _

theorem opDrivePin_invalidPin {s : State} {c pin : Nat} (hc : Idle c s) (hm : s.life = .mapped) (hpin : 32 ≤ pin)
    (desired : Nat) : opDrivePin c pin desired s = .next (s.setReturned (some (c, .err .invalidPin))) := by
  rw [opDrivePin, beginDrive, whenMapped_mapped hm, admittedPin_of_ge hpin]
  exact returnTo_idle hc _

theorem opDrivePin_invalidValue {s : State} {c pin desired : Nat} (hc : Idle c s) (hm : s.life = .mapped)
    (hpin : pin < 32) (hd : 2 ≤ desired) :
    opDrivePin c pin desired s = .next (s.setReturned (some (c, .err .invalidValue))) := by
  rw [opDrivePin, beginDrive, whenMapped_mapped hm, admittedPin_of_lt hpin]
  exact (if_neg (Nat.not_le.2 hd)).trans (returnTo_idle hc _)

/-- Settles O36: the three checks in their order. -/
theorem drivePinChecksBeforeAnyTransaction : Obligations.DrivePinChecksBeforeAnyTransaction := by
  intro s c pin desired rest hs hc
  have called := step_call_idle hs hc
  exact ⟨fun hl => called.trans (whenMapped_outside (s := s.accept rest) hl _),
    fun hm hpin => called.trans (opDrivePin_invalidPin (s := s.accept rest) hc hm hpin desired),
    fun hm hpin hd => called.trans (opDrivePin_invalidValue (s := s.accept rest) hc hm hpin hd)⟩

end Sys2Proof.Machine
end

section
/-! PROOFS. `VIEW` moves at the end of a `drive_pin` only (R182). -/

namespace Sys2Proof.Machine

/-- The call of an operation leaves every `VIEW` as it was. -/
theorem OpEffect.view {c : Nat} {op : Op} {u t : State} (h : OpEffect c op u t) : t.view = u.view := by
  cases h with
  | returned b r h => subst h; rfl
  | began b a hm ha h => subst h; rfl
  | lifecycle l k r hl h => subst h; rfl

theorem AfterTransaction.view {c : Nat} {u v t : State} (h : AfterTransaction c u v t) : t.view = v.view := by
  cases h with
  | ended r h => subst h; rfl
  | wentOn p d o stage hs h => subst h; rfl

/-- A step leaves every `VIEW` as it was, or is the end of a `drive_pin` and sets that of its pin (R182). -/
theorem step_view {s t : State} (h : step s = .next t) :
    t.view = s.view ∨
      ∃ (c : Nat) (p : Fin 32) (d : Bool) (o : DriveOrigin), s.inputs.head? = some (.resume c) ∧
        findCall c s.calls = some (.driving p d o .finish) ∧ t.view = s.view.set p (drivenView d) := by
  obtain ⟨-, rfl⟩ | ⟨i, rest, hs, h⟩ := step_eq_next.1 h
  · exact .inl rfl
  · obtain ⟨r, -, h⟩ | ⟨c, op, -, -, h⟩ | ⟨c, rfl, h⟩ := serve_effect h
    · obtain ⟨-, -, -, -, hv⟩ := exec_keeps h
      exact .inl hv
    · exact .inl h.view
    · obtain ⟨-, rfl⟩ | ⟨a, i, v, -, -, hv, h⟩ | ⟨p, d, o, hc, rfl⟩ := resumeCall_effect h
      · exact .inl rfl
      · obtain ⟨-, -, -, -, hv⟩ := exec_keeps hv
        exact .inl (h.view.trans hv)
      · exact .inr ⟨c, p, d, o, by rw [hs]; rfl, hc, rfl⟩

/-- Settles O58: of the steps only the end of a `drive_pin` writes a `VIEW`, and that of its own pin. -/
theorem viewMovesOnlyAtTheEndOfADrivePin : Obligations.ViewMovesOnlyAtTheEndOfADrivePin := by
  intro s t p h hne
  obtain hv | ⟨c, q, d, o, hi, hc, hv⟩ := step_view h
  · exact absurd (by rw [hv]) hne
  · by_cases hq : q = p
    · subst hq
      exact ⟨c, d, o, hi, hc, by rw [hv]; exact Vector.getElem_set_self q.isLt⟩
    · refine absurd ?_ hne
      rw [hv]
      exact Vector.getElem_set_ne q.isLt p.isLt (Fin.val_ne_of_ne hq)

end Sys2Proof.Machine
end

section
/-! PROOFS. Updates of the state one after the other, so that the state at the end of a run of moves has one form. -/

namespace Sys2Proof.Machine

/-! What taking the next input forgets and what it leaves (log entry 8). -/

@[simp] theorem accept_accept (s : State) (k l : List Input) : (s.accept k).accept l = s.accept l := rfl
@[simp] theorem accept_withInputs (s : State) (k l : List Input) : (s.withInputs k).accept l = s.accept l := rfl
@[simp] theorem accept_answer (s : State) (v : Word) (l : List Input) : (s.answer v).accept l = s.accept l := rfl
@[simp] theorem accept_setFsel (s : State) (n : Fin 4) (w : Word) (l : List Input) :
    (s.setFsel n w).accept l = (s.accept l).setFsel n w := rfl
@[simp] theorem accept_setOut (s : State) (w : Word) (l : List Input) :
    (s.setOut w).accept l = (s.accept l).setOut w := rfl
@[simp] theorem accept_setCalls (s : State) (k : List (Nat × Activity)) (l : List Input) :
    (s.setCalls k).accept l = (s.accept l).setCalls k := rfl

/-! The operations in progress are a field apart from the registers, and the last list put there counts. -/

@[simp] theorem setCalls_setCalls (s : State) (k l : List (Nat × Activity)) :
    (s.setCalls k).setCalls l = s.setCalls l := rfl
@[simp] theorem setFsel_setCalls (s : State) (k : List (Nat × Activity)) (n : Fin 4) (w : Word) :
    (s.setCalls k).setFsel n w = (s.setFsel n w).setCalls k := rfl
@[simp] theorem setOut_setCalls (s : State) (k : List (Nat × Activity)) (w : Word) :
    (s.setCalls k).setOut w = (s.setOut w).setCalls k := rfl
@[simp] theorem setView_setCalls (s : State) (k : List (Nat × Activity)) (p : Fin 32) (v : PinView) :
    (s.setCalls k).setView p v = (s.setView p v).setCalls k := rfl

/-- Ending the operation a caller has just been given is ending the one it had. -/
@[simp] theorem dropCall_putCall_self (c : Nat) (a : Activity) (l : List (Nat × Activity)) :
    dropCall c (putCall c a l) = dropCall c l := by
  induction l with
  | nil => simp [putCall, dropCall]
  | cons x t ih =>
    obtain ⟨k, b⟩ := x
    simp only [dropCall] at ih
    simp only [putCall]
    split
    · simp [dropCall]
    · split
      · next hk => simp [dropCall, hk]
      · simp only [dropCall, List.filter_cons, ih]

end Sys2Proof.Machine
end

section
/-! PROOFS. The moves of a `drive_pin` one by one, whoever else has an operation in progress (R173 to R175, R182). -/

namespace Sys2Proof.Machine

theorem resumeCall_driving {c : Nat} {s : State} {p : Fin 32} {d : Bool} {o : DriveOrigin} {stage : DriveStage}
    (hc : findCall c s.calls = some (.driving p d o stage)) : resumeCall c s = stepDriving c p d o stage s := by
  rw [resumeCall, hc]

section Stages

variable {s : State} (hm : s.life = .mapped) (c : Nat) (p : Fin 32) (d : Bool) (o : DriveOrigin)

include hm

/-- `t <- RD32(pin / 10)` (R174). -/
theorem stepDriving_readFsel :
    stepDriving c p d o .readFsel s =
      .next ((s.answer s.fsel[fselReg p]).setCalls
        (putCall c (.driving p d o (.writeFsel s.fsel[fselReg p])) s.calls)) := by
  have read : busRead (fselWoff (fselIndex p)) s = .next (s.answer s.fsel[fselReg p]) :=
    (busRead_fsel (fselReg p) s).trans (whenMapped_mapped hm _)
  rw [stepDriving, read]
  rfl

/-- `WR32(pin / 10, t')` (R174). -/
theorem stepDriving_writeFsel (t : Word) :
    stepDriving c p d o (.writeFsel t) s =
      .next ((s.setFsel (fselReg p) (configureOutput p t)).answerNothing.setCalls
        (putCall c (.driving p d o .readMask) s.calls)) := by
  have write : busWrite (fselWoff (fselIndex p)) (configureOutput p t) s =
      .next (s.setFsel (fselReg p) (configureOutput p t)).answerNothing :=
    (busWrite_fsel (fselReg p) _ s).trans (whenMapped_mapped hm _)
  rw [stepDriving, write]
  rfl

/-- `s <- RD32(7)` or `RD32(10)`: the answer is `WO_READ` (R39, R175). -/
theorem stepDriving_readMask :
    stepDriving c p d o .readMask s =
      .next ((s.answer s.params.woRead).setCalls
        (putCall c (.driving p d o (.writeMask s.params.woRead)) s.calls)) := by
  have read : busRead (driveWoff d) s = .next (s.answer s.params.woRead) :=
    (busRead_mask d s).trans (whenMapped_mapped hm _)
  rw [stepDriving, read]
  rfl

/-- `WR32(7, s | bit)` or `WR32(10, s | bit)` (R175). -/
theorem stepDriving_writeMask (m : Word) :
    stepDriving c p d o (.writeMask m) s =
      .next ((s.setOut (latchAfter d s.out (m ||| pinBit p))).answerNothing.setCalls
        (putCall c (.driving p d o .finish) s.calls)) := by
  have write : busWrite (driveWoff d) (m ||| pinBit p) s =
      .next (s.setOut (latchAfter d s.out (m ||| pinBit p))).answerNothing := by
    rw [busWrite_mask]
    cases d <;> exact whenMapped_mapped hm _
  rw [stepDriving, write]
  rfl

end Stages

/-- Settles O37: the stages one by one, and the field that the stored word sets. -/
theorem drivePinStagesAreItsTransactions : Obligations.DrivePinStagesAreItsTransactions := by
  intro s c p d o i hi hm
  obtain rfl : i = fselReg p := Fin.ext hi
  refine ⟨fun hc => (resumeCall_driving hc).trans (stepDriving_readFsel hm c p d o),
    fun t hc => (resumeCall_driving hc).trans (stepDriving_writeFsel hm c p d o t),
    fun hc => (resumeCall_driving hc).trans (stepDriving_readMask hm c p d o),
    fun m hc => (resumeCall_driving hc).trans (stepDriving_writeMask hm c p d o m), fun hc => ?_,
    fun hreserved w hw => ?_⟩
  · rw [resumeCall_finish hc]
    cases o <;> rfl
  · have hstored : w &&& 0x3FFFFFFF#32 = w :=
      and_reservedMask_eq_self ((congrArg _ hw).trans ((configureOutput_reserved p _).trans (hreserved (fselReg p))))
    refine ⟨hstored, fselField_configured ?_⟩
    rw [← configureOutput] at hw
    rw [← hw, hstored]

end Sys2Proof.Machine
end

section
/-! PROOFS. Whole `drive_pin` runs: what one caller's moves amount to with nobody between, and the losing order of two
callers (R173, R183, R184). -/

namespace Sys2Proof.Machine

/-- A move of a caller inside a run, by the stage its `drive_pin` is at. -/
theorem runSteps_move (n : Nat) {c : Nat} {s t : State} {l : List Input} {p : Fin 32} {d : Bool} {o : DriveOrigin}
    {stage : DriveStage} (hs : s.inputs = .resume c :: l) (hc : findCall c s.calls = some (.driving p d o stage))
    (hmove : stepDriving c p d o stage (s.accept l) = .next t) : runSteps (n + 1) s = runSteps n t := by
  rw [runSteps_resume n c hs, resumeCall_driving (s := s.accept l) hc, hmove, andThen_next]

section Stages

variable {c : Nat} {s : State} {l : List Input} {p : Fin 32} {d : Bool} {o : DriveOrigin} (n : Nat)
  (hs : s.inputs = .resume c :: l)

include hs

theorem runSteps_readFsel (hc : findCall c s.calls = some (.driving p d o .readFsel)) (hm : s.life = .mapped) :
    runSteps (n + 1) s = runSteps n (((s.accept l).answer s.fsel[fselReg p]).setCalls
      (putCall c (.driving p d o (.writeFsel s.fsel[fselReg p])) s.calls)) :=
  runSteps_move n hs hc (stepDriving_readFsel (s := s.accept l) hm c p d o)

theorem runSteps_writeFsel {t : Word} (hc : findCall c s.calls = some (.driving p d o (.writeFsel t)))
    (hm : s.life = .mapped) :
    runSteps (n + 1) s = runSteps n (((s.accept l).setFsel (fselReg p) (configureOutput p t)).setCalls
      (putCall c (.driving p d o .readMask) s.calls)) :=
  runSteps_move n hs hc (stepDriving_writeFsel (s := s.accept l) hm c p d o t)

theorem runSteps_readMask (hc : findCall c s.calls = some (.driving p d o .readMask)) (hm : s.life = .mapped) :
    runSteps (n + 1) s = runSteps n (((s.accept l).answer s.params.woRead).setCalls
      (putCall c (.driving p d o (.writeMask s.params.woRead)) s.calls)) :=
  runSteps_move n hs hc (stepDriving_readMask (s := s.accept l) hm c p d o)

theorem runSteps_writeMask {m : Word} (hc : findCall c s.calls = some (.driving p d o (.writeMask m)))
    (hm : s.life = .mapped) :
    runSteps (n + 1) s = runSteps n (((s.accept l).setOut (latchAfter d s.out (m ||| pinBit p))).setCalls
      (putCall c (.driving p d o .finish) s.calls)) :=
  runSteps_move n hs hc (stepDriving_writeMask (s := s.accept l) hm c p d o m)

theorem runSteps_finish (hc : findCall c s.calls = some (.driving p d o .finish)) :
    runSteps (n + 1) s = runSteps n ((((s.accept l).setView p (drivenView d)).setCalls
      (dropCall c s.calls)).setReturned (some (c, driveResult o))) :=
  runSteps_move n hs hc rfl

end Stages

/-- The call of `drive_pin` for an admitted pin and value inside a run (R173). -/
theorem runSteps_drivePin (n : Nat) {c : Nat} {s : State} {l : List Input} {p : Fin 32} {d : Bool}
    (hs : s.inputs = .call c (.drivePin p d.toNat) :: l) (hc : Idle c s) (hm : s.life = .mapped) :
    runSteps (n + 1) s =
      runSteps n ((s.accept l).setCalls (putCall c (.driving p d .direct .readFsel) s.calls)) := by
  have begun := beginDrive_mapped (s := s.accept l) hm c p d .direct
  rw [runSteps, step_call_idle hs hc]
  exact congrArg (andThen · (runSteps n)) begun

/-- What the second half of a `drive_pin` leaves: the latch write, `VIEW` and the return (R173, R175). -/
def State.levelDriven (s : State) (c : Nat) (p : Fin 32) (d : Bool) (o : DriveOrigin) (l : List Input) : State :=
  ((((s.accept l).setOut (latchAfter d s.out (s.params.woRead ||| pinBit p))).setView p (drivenView d)).setCalls
    (dropCall c s.calls)).setReturned (some (c, driveResult o))

/-- The pin's latch bit is the value asked for; another one moves to it where `WO_READ` has a 1 (R175, R183). -/
theorem levelDriven_out_getElem (s : State) (c : Nat) (p : Fin 32) (d : Bool) (o : DriveOrigin) (l : List Input)
    (q : Fin 32) :
    (s.levelDriven c p d o l).out[q] = if s.params.woRead[q] || decide (q = p) then d else s.out[q] := by
  rw [← or_pinBit_getElem]
  exact latchAfter_getElem d s.out _ q

theorem levelDriven_view (s : State) (c : Nat) (p : Fin 32) (d : Bool) (o : DriveOrigin) (l : List Input) :
    (s.levelDriven c p d o l).view = s.view.set p (drivenView d) := rfl

/-- The last three moves of a `drive_pin` with nobody between, whoever else has an operation in progress. -/
theorem runSteps_levelDriven (n : Nat) {s : State} {c : Nat} {p : Fin 32} {d : Bool} {o : DriveOrigin}
    {l : List Input} (hs : s.inputs = List.replicate 3 (.resume c) ++ l) (hm : s.life = .mapped)
    (hc : findCall c s.calls = some (.driving p d o .readMask)) :
    runSteps (n + 3) s = runSteps n (s.levelDriven c p d o l) := by
  refine Eq.trans (runSteps_readMask (n + 2) hs hc hm) ?_
  refine Eq.trans (runSteps_writeMask (n + 1) rfl (findCall_putCall_self c _ _) hm) ?_
  refine Eq.trans (runSteps_finish n rfl (findCall_putCall_self c _ _)) ?_
  simp [State.levelDriven]

/-- What a whole `drive_pin` with nobody between leaves: its pin an output, then its second half (R173, R174). -/
def State.driven (s : State) (c : Nat) (p : Fin 32) (d : Bool) (o : DriveOrigin) (l : List Input) : State :=
  (s.setFsel (fselReg p) (configureOutput p s.fsel[fselReg p])).levelDriven c p d o l

/-- All five moves of a `drive_pin` with nobody between, whoever asked for it. -/
theorem runSteps_driven (n : Nat) {s : State} {c : Nat} {p : Fin 32} {d : Bool} {o : DriveOrigin} {l : List Input}
    (hs : s.inputs = List.replicate 5 (.resume c) ++ l) (hm : s.life = .mapped)
    (hc : findCall c s.calls = some (.driving p d o .readFsel)) :
    runSteps (n + 5) s = runSteps n (s.driven c p d o l) := by
  refine Eq.trans (runSteps_readFsel (n + 4) hs hc hm) ?_
  refine Eq.trans (runSteps_writeFsel (n + 3) rfl (findCall_putCall_self c _ _) hm) ?_
  refine Eq.trans (runSteps_levelDriven n rfl hm (findCall_putCall_self c _ _)) ?_
  simp [State.driven, State.levelDriven]

/-- A caller that had nothing in progress calls `drive_pin` and makes its moves with nobody between (R173). -/
theorem runSteps_drivePin_alone (n : Nat) {s : State} {c : Nat} {p : Fin 32} {d : Bool} (l : List Input)
    (hc : Idle c s) (hm : s.life = .mapped) :
    runSteps (n + 6) (s.withInputs (aloneInputs c (.drivePin p d.toNat) 5 ++ l)) =
      runSteps n (s.driven c p d .direct l) := by
  refine Eq.trans (runSteps_drivePin (n + 5) rfl hc hm) ?_
  refine Eq.trans (runSteps_driven n rfl hm (findCall_putCall_self c _ _)) ?_
  simp [State.driven, State.levelDriven]

theorem runSteps_drivePin_next {s : State} {c : Nat} (hc : Idle c s) (hm : s.life = .mapped) (p : Fin 32) (d : Bool) :
    runSteps 6 (s.withInputs (aloneInputs c (.drivePin p d.toNat) 5)) = .next (s.driven c p d .direct []) :=
  runSteps_drivePin_alone 0 [] hc hm

/-- Settles O38: the net effect is `State.driven`, whose stored word has bits 31:30 zero already. -/
theorem drivePinNetEffectForOneCaller : Obligations.DrivePinNetEffectForOneCaller := by
  intro s c p d i hi hm hc hreserved
  obtain rfl : i = fselReg p := Fin.ext hi
  have hstored : configureOutput p s.fsel[fselReg p] &&& 0x3FFFFFFF#32 = configureOutput p s.fsel[fselReg p] :=
    and_reservedMask_eq_self ((configureOutput_reserved p _).trans (hreserved (fselReg p)))
  refine (runSteps_drivePin_next hc hm p d).trans ?_
  rw [State.driven, State.levelDriven, setFsel_calls, dropCall_idle hc, State.setFsel, hstored, BitVec.or_assoc]
  rfl

theorem fselField_driven (s : State) (c : Nat) (p : Fin 32) (d : Bool) (o : DriveOrigin) (l : List Input)
    (q : Fin 40) : fselField (s.driven c p d o l) q = if q = fieldPin p then 0b001#3 else fselField s q :=
  fselField_configured rfl q

theorem driven_out_getElem (s : State) (c : Nat) (p : Fin 32) (d : Bool) (o : DriveOrigin) (l : List Input)
    (q : Fin 32) :
    (s.driven c p d o l).out[q] = if s.params.woRead[q] || decide (q = p) then d else s.out[q] :=
  levelDriven_out_getElem _ c p d o l q

/-- The driven pin is an output, so its level is its latch bit, whatever stands on the pads (R38, R183). -/
theorem levelWord_driven (s : State) (c : Nat) (p : Fin 32) (d : Bool) (o : DriveOrigin) (l : List Input)
    (pad : Word) : (levelWord (s.driven c p d o l) pad)[p] = d := by
  rw [levelWord_getElem, fselField_driven, if_pos rfl, if_pos rfl, driven_out_getElem, decide_eq_true rfl,
    Bool.or_true, if_pos rfl]

/-- A latch whose bits are all the opposite of the value asked for shows every 1 of `WO_READ` (R183). -/
theorem woRead_of_driven_opposite {s : State} {c : Nat} {p q : Fin 32} {d : Bool} {o : DriveOrigin} {l : List Input}
    (hq : q ≠ p) (hs : s.out[q] = !d) (hkeeps : (s.driven c p d o l).out[q] = s.out[q]) :
    s.params.woRead[q] = false := by
  rw [driven_out_getElem, decide_eq_false hq, Bool.or_false, hs] at hkeeps
  refine Bool.eq_false_iff.2 fun hwo => ?_
  rw [if_pos hwo] at hkeeps
  exact (Bool.eq_not_self d).1 hkeeps

/-- Settles O39: the read is of a pin that is an output, and the latch write moves exactly the bits of
`WO_READ | bit(pin)` to the value asked for. -/
theorem drivePinReadsBackAndIsIsolated : Obligations.DrivePinReadsBackAndIsIsolated := by
  intro s c p d hm hc
  refine ⟨?_, ⟨_, runSteps_drivePin_next hc hm p d, fun q hq => ?_⟩, fun h => ?_, fun h out => ?_⟩
  · refine ⟨_, (runSteps_drivePin_alone 2 _ hc hm).trans
      (runSteps_readLevel (s := s.driven c p d .direct []) (findCall_dropCall_self c _) hm p), ?_⟩
    rw [setReturned_returned, levelWord_driven]
  · rw [fselField_driven, if_neg hq]
  · refine (and_not_pinBit_eq_zero_iff _ p).2 fun q hq => ?_
    obtain ⟨t, ht, hkeeps⟩ := h (BitVec.ofFnLE fun _ => !d)
    rw [runSteps_drivePin_next (s := { s with out := BitVec.ofFnLE fun _ => !d }) hc hm] at ht
    cases ht
    exact woRead_of_driven_opposite (s := { s with out := BitVec.ofFnLE fun _ => !d }) hq (by simp) (hkeeps q hq)
  · refine ⟨_, runSteps_drivePin_next (s := { s with out := out }) hc hm p d, fun q hq => ?_⟩
    have hwo : s.params.woRead[q] = false := (and_not_pinBit_eq_zero_iff _ p).1 h q hq
    rw [driven_out_getElem, hwo, decide_eq_false hq]
    rfl

/-- The first half of the losing order: A and B have read the one word, then both have written it, so that A's write is
gone (R184). -/
theorem runSteps_lostUpdate (n : Nat) {s : State} {a b : Nat} {p q : Fin 32} {l : List Input} (hab : a ≠ b)
    (hreg : fselReg p = fselReg q) (hm : s.life = .mapped) (ha : Idle a s) (hb : Idle b s)
    (hs : s.inputs =
      [.call a (.drivePin p 1), .call b (.drivePin q 1), .resume a, .resume b, .resume a, .resume b] ++ l) :
    ∃ u, runSteps (n + 6) s = runSteps n u ∧ u.inputs = l ∧ u.life = .mapped ∧
      findCall a u.calls = some (.driving p true .direct .readMask) ∧
      findCall b u.calls = some (.driving q true .direct .readMask) ∧
      u.fsel = s.fsel.set (fselReg q) (configureOutput q s.fsel[fselReg q] &&& 0x3FFFFFFF#32) := by
  have findA (x y : Activity) (t : List (Nat × Activity)) : findCall a (putCall b x (putCall a y t)) = some y :=
    (findCall_putCall_other hab x _).trans (findCall_putCall_self a y t)
  have findB (x y : Activity) (t : List (Nat × Activity)) : findCall b (putCall a x (putCall b y t)) = some y :=
    (findCall_putCall_other hab.symm x _).trans (findCall_putCall_self b y t)
  have idleB (x : Activity) : findCall b (putCall a x s.calls) = none :=
    (findCall_putCall_other hab.symm x _).trans hb
  apply Exists.intro
  constructor
  · refine Eq.trans (runSteps_drivePin (d := true) (n + 5) hs ha hm) ?_
    refine Eq.trans (runSteps_drivePin (d := true) (n + 4) rfl (idleB _) (by simp [hm])) ?_
    refine Eq.trans (runSteps_readFsel (n + 3) rfl (findA _ _ _) (by simp [hm])) ?_
    refine Eq.trans (runSteps_readFsel (n + 2) rfl (findB _ _ _) (by simp [hm])) ?_
    refine Eq.trans (runSteps_writeFsel (n + 1) rfl (findA _ _ _) (by simp [hm])) ?_
    exact runSteps_writeFsel n rfl (findB _ _ _) (by simp [hm])
  · refine ⟨rfl, by simp [hm], findA _ _ _, findCall_putCall_self b _ _, ?_⟩
    simp [hreg]

/-- The second halves of A's and of B's `drive_pin`, one after the other. -/
theorem runSteps_levelDriven_both {u : State} {a b : Nat} {p q : Fin 32} {d e : Bool} {o r : DriveOrigin}
    (hab : a ≠ b) (hs : u.inputs = List.replicate 3 (.resume a) ++ List.replicate 3 (.resume b)) (hm : u.life = .mapped)
    (ha : findCall a u.calls = some (.driving p d o .readMask))
    (hb : findCall b u.calls = some (.driving q e r .readMask)) :
    runSteps 6 u =
      .next ((u.levelDriven a p d o (List.replicate 3 (.resume b))).levelDriven b q e r []) := by
  have hb' : findCall b (dropCall a u.calls) = some (.driving q e r .readMask) :=
    (findCall_dropCall_other hab.symm u.calls).trans hb
  exact (runSteps_levelDriven 3 hs hm ha).trans
    (runSteps_levelDriven 0 (s := u.levelDriven a p d o (List.replicate 3 (.resume b))) rfl hm hb')

/-- Settles O40: B's stored word is made from the one read before A's write, and the second halves, one after the
other, set both latch bits and both views. -/
theorem twoCallersCanLoseAFieldUpdate : Obligations.TwoCallersCanLoseAFieldUpdate := by
  intro s a b p q hab hpq hindex hm ha hb
  obtain ⟨u, hrun, hinputs, hmapped, hfindA, hfindB, hfsel⟩ := runSteps_lostUpdate 6
    (s := s.withInputs (lostUpdateInputs a b p q)) hab (Fin.ext hindex) hm ha hb rfl
  refine ⟨_, hrun.trans (runSteps_levelDriven_both hab hinputs hmapped hfindA hfindB), ?_⟩
  generalize List.replicate 3 (Input.resume b) = l
  have field := fselField_configured (s := s)
    (t := (u.levelDriven a p true .direct l).levelDriven b q true .direct []) hfsel
  have hfield : fieldPin p ≠ fieldPin q := fun h => hpq (Fin.ext (congrArg (fun r : Fin 40 => r.val) h))
  have hne : q.val ≠ p.val := Fin.val_ne_of_ne hpq.symm
  refine ⟨(field _).trans (if_neg hfield), (field _).trans (if_pos rfl), ?_, ?_, ?_, ?_⟩
  · rw [levelDriven_out_getElem, levelDriven_out_getElem]
    simp
  · rw [levelDriven_out_getElem]
    simp
  · simp [levelDriven_view, hne, drivenView]
  · simp [levelDriven_view, drivenView]

end Sys2Proof.Machine
end

section
/-! PROOFS. The lifecycle of the driver: `start` and `stop` (R207, R208). -/

namespace Sys2Proof.Machine

theorem unmapBlock_released {s : State} (hm : s.life = .mapped) (hf : someInFlight s = false) :
    unmapBlock s = .next (s.setLife .destroyed) := by
  rw [unmapBlock, if_neg (not_not.2 hm), if_neg (Bool.eq_false_iff.1 hf)]

theorem opStart_twice {s : State} (hl : s.life ≠ .unmapped) (c : Nat) : opStart c s = .refused .mapTwice :=
  if_pos hl

/-! The three ends of `start` from Unmapped, by the choices of the two host facilities (R207). -/

section Unmapped

variable {s : State} {c : Nat} (hc : Idle c s) (hl : s.life = .unmapped)

include hc hl

theorem opStart_mapFails (hmap : ¬Config.mapSucceeds s.hostDraws = true) :
    opStart c s = .next (s.countHostDraw.setReturned (some (c, .err .mapFailure))) := by
  rw [opStart, if_neg (not_not.2 hl), if_neg hmap, tryMap, if_neg hmap]
  exact returnTo_idle (s := s.countHostDraw) hc _

theorem opStart_published (hmap : Config.mapSucceeds s.hostDraws = true)
    (hpublish : Config.publishSucceeds (s.hostDraws + 1) = true) :
    opStart c s =
      .next (((s.countHostDraw.setLife .mapped).countHostDraw).setReturned (some (c, .done))) := by
  rw [opStart, if_neg (not_not.2 hl), if_pos hmap, tryMap, if_pos hmap]
  exact (if_pos hpublish).trans (returnTo_idle (s := (s.countHostDraw.setLife .mapped).countHostDraw) hc _)

/-- Publishing failed: nothing is in flight yet, so the unmap completes. -/
theorem opStart_aborted (hf : someInFlight s = false) (hmap : Config.mapSucceeds s.hostDraws = true)
    (hpublish : ¬Config.publishSucceeds (s.hostDraws + 1) = true) :
    opStart c s =
      .next (((s.countHostDraw.setLife .mapped).countHostDraw.setLife .destroyed).setReturned
        (some (c, .startAborted))) := by
  have released : unmapBlock (s.countHostDraw.setLife .mapped).countHostDraw = .next _ := unmapBlock_released rfl hf
  rw [opStart, if_neg (not_not.2 hl), if_pos hmap, tryMap, if_pos hmap]
  refine (if_neg hpublish).trans ?_
  rw [released]
  exact returnTo_idle (s := (s.countHostDraw.setLife .mapped).countHostDraw.setLife .destroyed) hc _

end Unmapped

/-- Settles O30, by the choices of the mapping and of the registration facility. -/
theorem startMapsOrAbortsAndTouchesNoRegister : Obligations.StartMapsOrAbortsAndTouchesNoRegister := by
  intro s c rest hs hc
  have called := step_call_idle hs hc
  refine ⟨fun hl => called.trans (opStart_twice (s := s.accept rest) hl c), fun hl hflight => ?_⟩
  have hf : someInFlight s = false :=
    Bool.eq_false_iff.2 fun hf => absurd (hl.symm.trans (hflight hf)) (by decide)
  by_cases hmap : Config.mapSucceeds s.hostDraws = true
  · by_cases hpublish : Config.publishSucceeds (s.hostDraws + 1) = true
    · exact ⟨.mapped, _, 2, called.trans (opStart_published (s := s.accept rest) hc hl hmap hpublish),
        .inl ⟨rfl, rfl⟩⟩
    · exact ⟨.destroyed, _, 2, called.trans (opStart_aborted (s := s.accept rest) hc hl hf hmap hpublish),
        .inr (.inr ⟨rfl, by decide⟩)⟩
  · refine ⟨.unmapped, _, 1, (called.trans (opStart_mapFails (s := s.accept rest) hc hl hmap)).trans ?_,
      .inr (.inl ⟨rfl, rfl⟩)⟩
    rw [← hl]
    rfl

/-- Once `LIFE` is Destroyed every operation is refused: the lifecycle has no way back, the others need the mapping
(R40, R66, R151). -/
theorem runOp_destroyed {s : State} (hl : s.life = .destroyed) (c : Nat) (op : Op) :
    ∃ r, runOp c op s = .refused r := by
  have hm : s.life ≠ .mapped := by simp [hl]
  have hu : s.life ≠ .unmapped := by simp [hl]
  cases op with
  | map base => exact ⟨_, opMap_twice hu c base⟩
  | start => exact ⟨_, opStart_twice hu c⟩
  | unmap | stop => exact ⟨_, opUnmap_notMapped hm c⟩
  | getBit offset k =>
    by_cases hk : k < 32
    · exact ⟨_, (opGetBit_of_lt hk c offset s).trans (whenMapped_outside hm _)⟩
    · exact ⟨_, opGetBit_of_ge (Nat.not_lt.1 hk) c offset s⟩
  | readWord | writeWord | readLevel | drivePin | statusRead | commandWrite => exact ⟨_, whenMapped_outside hm _⟩

theorem beginOp_idle {s : State} {c : Nat} (hc : Idle c s) (op : Op) : beginOp c op s = runOp c op s := by
  rw [beginOp, hc]

theorem beginOp_destroyed {s : State} (hl : s.life = .destroyed) (c : Nat) (op : Op) (t : State) :
    beginOp c op s ≠ .next t := by
  cases hc : findCall c s.calls with
  | some a => simp [beginOp, hc]
  | none =>
    obtain ⟨r, hr⟩ := runOp_destroyed hl c op
    simp [beginOp_idle hc, hr]

/-- Settles O31: `stop` is `opUnmap`, and nothing begins on a destroyed block. -/
theorem stopUnmapsAndTouchesNoRegister : Obligations.StopUnmapsAndTouchesNoRegister := by
  intro s c rest hs hc
  have called := step_call_idle hs hc
  exact ⟨fun hm hf => called.trans (opUnmap_released (s := s.accept rest) hc hm hf),
    fun hm hf => called.trans (opUnmap_inFlight (s := s.accept rest) hm hf c),
    fun hl => called.trans (opUnmap_notMapped (s := s.accept rest) hl c), beginOp_destroyed⟩

end Sys2Proof.Machine
end

section
/-! PROOFS. The status line (R200) and the command buffer with the text cut from it (R202). -/

namespace Sys2Proof.Machine

/-- Settles O43: `status_read` is the read of GPLEV0 that uses the bit of pin 4 (R122). -/
theorem statusLineReportsPin4 : Obligations.StatusLineReportsPin4 := by
  intro s c hm hc
  have read : exec (decodeRecord (rd32 gplev0Woff)) (s.accept []) =
      .next ((s.accept []).countPadDraw.answer (levelWord s (Config.padDraw s.padDraws))) :=
    whenMapped_mapped (s := s.accept []) hm _
  have run := runSteps_oneRead (op := .statusRead) (use := .status) hc hm fun u => whenMapped_whenMapped u _
  rw [read] at run
  exact ⟨_, _, _, run, rfl, rfl, levelWord_getElem s _ statusPin⟩

/-- The bytes of the filled buffer: the first 256 of the input and zeros after them (R202). -/
theorem fillBuffer_toList (input : List Byte) :
    (fillBuffer input).toList = input.take 256 ++ List.replicate (256 - (input.take 256).length) 0 := rfl

theorem fillBuffer_getElem (input : List Byte) (i : Fin 256) : (fillBuffer input)[i] = input.getD i 0 := by
  have hlt : i.val < (fillBuffer input).toList.length := by simp
  have hlen : (input.take 256).length = min 256 input.length := List.length_take
  calc (fillBuffer input)[i]
      = (fillBuffer input).toList[i.val]'hlt := rfl
    _ = input.getD i 0 := by
      simp only [fillBuffer_toList, List.getElem_append, List.getElem_take, List.getElem_replicate]
      split
      · exact (List.getD_eq_getElem _ _ (by omega)).symm
      · exact (List.getD_eq_default _ _ (by omega)).symm

/-- The zeros after the input end the text where the input did not (R202). -/
theorem takeWhile_append_zeros (text : List Byte) (n : Nat) :
    (text ++ List.replicate n 0).takeWhile (· != 0) = text.takeWhile (· != 0) := by
  induction text with
  | nil => simp
  | cons b rest ih => simp only [List.cons_append, List.takeWhile_cons, ih]

theorem bufferText_fillBuffer (input : List Byte) :
    bufferText (fillBuffer input) = (input.take 256).takeWhile (· != 0) :=
  takeWhile_append_zeros _ _

theorem fillBuffer_congr {input other : List Byte} (h : other.take 256 = input.take 256) :
    fillBuffer other = fillBuffer input :=
  Vector.toList_inj.1 (by rw [fillBuffer_toList, fillBuffer_toList, h])

/-- Settles O44: the buffer byte by byte and its text; a command write replaces the buffer before anything reads it. -/
theorem commandBufferIsZeroedFilledAndCut : Obligations.CommandBufferIsZeroedFilledAndCut :=
  fun input => ⟨fillBuffer_getElem input, bufferText_fillBuffer input, fun _ => fillBuffer_congr, fun _ _ _ => rfl⟩

end Sys2Proof.Machine
end

section
/-! PROOFS. The grammar of the command text (R203): what one conversion of an integer gives, and what the two and the
comma between them make of a text. -/

namespace Sys2Proof.Machine

/-- A text begins with no white space and no sign, so that the sign before it is the one there is, or none (R203). -/
def StartsBare (body : List Byte) : Prop :=
  ∀ b, body.head? = some b → isWs b = false ∧ b ≠ 0x2B ∧ b ≠ 0x2D

/-- A text does not go on with a digit (R203). -/
def StartsNoDigit (rest : List Byte) : Prop := ∀ b, rest.head? = some b → isDigit b = false

theorem isDigit_bare : ∀ b : Byte, isDigit b = true → isWs b = false ∧ b ≠ 0x2B ∧ b ≠ 0x2D := by decide

theorem startsBare_digits {digits : List Byte} (hd : ∀ b ∈ digits, isDigit b = true) (hne : digits ≠ [])
    (rest : List Byte) : StartsBare (digits ++ rest) := by
  obtain ⟨d, ds, rfl⟩ := List.exists_cons_of_ne_nil hne
  rintro b ⟨⟩
  exact isDigit_bare d (hd d List.mem_cons_self)

theorem scanSign_signBytes {sign : Option Bool} {body : List Byte} (h : sign = none → StartsBare body) :
    scanSign (signBytes sign ++ body) = (decide (sign = some true), body) := by
  obtain _ | _ | _ := sign
  · cases body with
    | nil => rfl
    | cons b rest =>
      obtain ⟨-, hplus, hminus⟩ := h rfl b rfl
      exact (if_neg (mt beq_iff_eq.1 hminus)).trans (if_neg (mt beq_iff_eq.1 hplus))
  · rfl
  · rfl

/-- The white space before an optional sign is skipped and no more (R203). -/
theorem dropWhile_ws {ws : List Byte} (hw : ∀ b ∈ ws, isWs b = true) {sign : Option Bool} {body : List Byte}
    (h : sign = none → StartsBare body) :
    (ws ++ signBytes sign ++ body).dropWhile isWs = signBytes sign ++ body := by
  rw [List.append_assoc, List.dropWhile_append_of_pos hw]
  obtain _ | _ | _ := sign
  · cases body with
    | nil => rfl
    | cons b rest =>
      obtain ⟨hb, -⟩ := h rfl b rfl
      simp [signBytes, hb]
  · rfl
  · rfl

theorem takeWhile_digits {digits rest : List Byte} (hd : ∀ b ∈ digits, isDigit b = true) (h : StartsNoDigit rest) :
    (digits ++ rest).takeWhile isDigit = digits ∧ (digits ++ rest).dropWhile isDigit = rest := by
  rw [List.takeWhile_append_of_pos hd, List.dropWhile_append_of_pos hd]
  cases rest with
  | nil => simp
  | cons b rest => simp [h b rfl]

/-- One conversion of digits: the integer, or an overflow by its magnitude (R203). -/
theorem scanInt_digits {ws digits rest : List Byte} (sign : Option Bool) (hw : ∀ b ∈ ws, isWs b = true)
    (hd : ∀ b ∈ digits, isDigit b = true) (hne : digits ≠ []) (hrest : StartsNoDigit rest) :
    scanInt (ws ++ signBytes sign ++ digits ++ rest) =
      if decimalValue digits > 2147483647 then .overflow else .int (signedValue sign digits) rest := by
  have bare : sign = none → StartsBare (digits ++ rest) := fun _ => startsBare_digits hd hne rest
  obtain ⟨htake, hdrop⟩ := takeWhile_digits hd hrest
  rw [List.append_assoc _ digits rest, scanInt, dropWhile_ws hw bare, scanSign_signBytes bare]
  simp [htake, hdrop, hne, signedValue]

theorem scanInt_missing {ws rest : List Byte} {sign : Option Bool} (hw : ∀ b ∈ ws, isWs b = true)
    (h : NoInteger sign rest) : scanInt (ws ++ signBytes sign ++ rest) = .missing := by
  have bare : sign = none → StartsBare rest := fun hs b hb => (h b hb).2 hs
  obtain ⟨htake, -⟩ := takeWhile_digits (digits := []) (by simp) fun b hb => (h b hb).1
  rw [List.nil_append] at htake
  rw [scanInt, dropWhile_ws hw bare, scanSign_signBytes bare]
  simp [htake]

/-! What a conversion at the start of the text, and one after the comma, make of the whole (R203). -/

theorem parseCommand_missing {text : List Byte} (h : scanInt text = .missing) : parseCommand text = .failure := by
  rw [parseCommand, h]

theorem parseCommand_overflow {text : List Byte} (h : scanInt text = .overflow) : parseCommand text = .overflow := by
  rw [parseCommand, h]

theorem parseCommand_int {text rest : List Byte} {pin : Int} (h : scanInt text = .int pin rest) :
    parseCommand text = parseValue pin rest := by
  rw [parseCommand, h]

theorem parseValue_missing {rest : List Byte} (h : scanInt rest = .missing) (pin : Int) :
    parseValue pin (0x2C :: rest) = .failure := by
  rw [parseValue, if_pos (beq_self_eq_true _), h]

theorem parseValue_overflow {rest : List Byte} (h : scanInt rest = .overflow) (pin : Int) :
    parseValue pin (0x2C :: rest) = .overflow := by
  rw [parseValue, if_pos (beq_self_eq_true _), h]

theorem parseValue_int {rest tail : List Byte} {value : Int} (h : scanInt rest = .int value tail) (pin : Int) :
    parseValue pin (0x2C :: rest) = .pair pin value := by
  rw [parseValue, if_pos (beq_self_eq_true _), h]

theorem parseValue_noComma {pin : Int} {rest : List Byte} (h : ∀ b, rest.head? = some b → b ≠ 0x2C) :
    parseValue pin rest = .failure := by
  cases rest with
  | nil => rfl
  | cons b rest => exact if_neg (mt beq_iff_eq.1 (h b rfl))

/-- A first integer that fits leaves the text after it to `parseValue` (R203). -/
theorem parseCommand_firstFits {ws digits rest : List Byte} (sign : Option Bool) (hw : ∀ b ∈ ws, isWs b = true)
    (hd : ∀ b ∈ digits, isDigit b = true) (hne : digits ≠ []) (hrest : StartsNoDigit rest)
    (hfits : decimalValue digits ≤ 2147483647) :
    parseCommand (ws ++ signBytes sign ++ digits ++ rest) = parseValue (signedValue sign digits) rest :=
  parseCommand_int ((scanInt_digits sign hw hd hne hrest).trans (if_neg (Nat.not_lt.2 hfits)))

theorem startsNoDigit_comma (rest : List Byte) : StartsNoDigit (0x2C :: rest) := by
  rintro b ⟨⟩
  rfl

/-- Settles O45: the conversions of the two integers, clause by clause. -/
theorem grammarReadsTwoIntegersAndAComma : Obligations.GrammarReadsTwoIntegersAndAComma := by
  refine ⟨fun w1 w2 d1 d2 rest g1 g2 hw hd h1 h2 hrest hfits => ?_, fun w1 d1 rest g1 hw hd hrest hbig => ?_,
    fun w1 d1 rest g1 hw hd hne hfits hrest => ?_, fun w1 w2 d1 rest g1 g2 hw hd hne hfits hnone => ?_,
    fun w1 rest g1 hw hnone => parseCommand_missing (scanInt_missing hw hnone)⟩
  · obtain ⟨hw1, hw2⟩ := List.forall_mem_append.1 hw
    obtain ⟨hd1, hd2⟩ := List.forall_mem_append.1 hd
    rw [parseCommand_firstFits g1 hw1 hd1 h1 (startsNoDigit_comma _) hfits]
    have second := scanInt_digits g2 hw2 hd2 h2 hrest
    by_cases hbig : decimalValue d2 > 2147483647
    · rw [if_pos hbig]
      exact parseValue_overflow (second.trans (if_pos hbig)) _
    · rw [if_neg hbig]
      exact parseValue_int (second.trans (if_neg hbig)) _
  · have hne : d1 ≠ [] := by
      rintro rfl
      exact absurd hbig (by decide)
    exact parseCommand_overflow ((scanInt_digits g1 hw hd hne hrest).trans (if_pos hbig))
  · rw [parseCommand_firstFits g1 hw hd hne (fun b hb => (hrest b hb).1) hfits]
    exact parseValue_noComma fun b hb => (hrest b hb).2
  · obtain ⟨hw1, hw2⟩ := List.forall_mem_append.1 hw
    rw [parseCommand_firstFits g1 hw1 hd hne (startsNoDigit_comma _) hfits]
    exact parseValue_missing (scanInt_missing hw2 hnone) _

/-- Settles O47, by running the parser on the thirteen texts. -/
theorem sourceCommandsGetTheirVerdicts : Obligations.SourceCommandsGetTheirVerdicts := by
  unfold Obligations.SourceCommandsGetTheirVerdicts
  decide

end Sys2Proof.Machine
end

section
/-! PROOFS. The command write (R201 to R206): the verdict on a parsed pair, the call for each verdict, and the whole run
of a command that drives. -/

namespace Sys2Proof.Machine

/-! The range check (R204). -/

theorem commandVerdict_pair {text : List Byte} {pin value : Int} (h : parseCommand text = .pair pin value) :
    commandVerdict text =
      if 0 ≤ pin ∧ pin ≤ 21 ∧ 0 ≤ value ∧ value ≤ 1 then .drive pin.toNat value.toNat
      else .recovered .rangeViolation := by
  rw [commandVerdict, h]
  rfl

/-- Only a pair in range drives (R204). -/
theorem commandVerdict_drive_bounds {text : List Byte} {pin desired : Nat}
    (h : commandVerdict text = .drive pin desired) : pin ≤ 21 ∧ desired ≤ 1 := by
  cases hp : parseCommand text with
  | failure => simp [commandVerdict, hp] at h
  | overflow => simp [commandVerdict, hp] at h
  | pair p v =>
    rw [commandVerdict_pair hp] at h
    split at h
    · cases h
      omega
    · cases h

/-- What a `drive_pin` leaves is the same from the state in which its call has just put it in progress. -/
theorem driven_begun (s : State) (k l : List Input) (c : Nat) (a : Activity) (p : Fin 32) (d : Bool) (o : DriveOrigin) :
    ((s.accept k).setCalls (putCall c a s.calls)).driven c p d o l = s.driven c p d o l := by
  simp [State.driven, State.levelDriven]

/-! The call on the mapped block, by the verdict on the text (R201). -/

section Mapped

variable {s : State} {c : Nat} {input : List Byte} (hm : s.life = .mapped)

include hm

theorem opCommandWrite_refuse (hv : commandVerdict (bufferText (fillBuffer input)) = .refuse) :
    opCommandWrite c input s = .refused .integerTokenOverflow := by
  rw [opCommandWrite, whenMapped_mapped hm, hv]

theorem opCommandWrite_recovered (hc : Idle c s) {e : OpError}
    (hv : commandVerdict (bufferText (fillBuffer input)) = .recovered e) :
    opCommandWrite c input s =
      .next ((s.setCmdBuf (fillBuffer input)).setReturned (some (c, .count input.length))) := by
  rw [opCommandWrite, whenMapped_mapped hm, hv]
  exact returnTo_idle (s := s.setCmdBuf (fillBuffer input)) hc _

theorem opCommandWrite_drive {p : Fin 32} {d : Bool}
    (hv : commandVerdict (bufferText (fillBuffer input)) = .drive p d.toNat) :
    opCommandWrite c input s =
      proceed c (.driving p d (.command input.length) .readFsel) (s.setCmdBuf (fillBuffer input)) := by
  rw [opCommandWrite, whenMapped_mapped hm, hv]
  exact beginDrive_mapped (s := s.setCmdBuf (fillBuffer input)) hm c p d _

/-- A command that drives, with nobody between: the buffer is filled, then the moves are those of `drive_pin`, whose end
returns the count (R201, R206). -/
theorem runSteps_commandWrite (hc : Idle c s) {p : Fin 32} {d : Bool}
    (hv : commandVerdict (bufferText (fillBuffer input)) = .drive p d.toNat) :
    runSteps 6 (s.withInputs (aloneInputs c (.commandWrite input) 5)) =
      .next ((s.setCmdBuf (fillBuffer input)).driven c p d (.command input.length) []) := by
  have begun := opCommandWrite_drive (s := s.accept (List.replicate 5 (.resume c))) (c := c) hm hv
  refine (runSteps_call 5 c _ rfl).trans ?_
  rw [accept_withInputs, beginOp_idle (s := s.accept _) hc, runOp, begun, proceed, andThen_next]
  refine Eq.trans (runSteps_driven 0 rfl hm (findCall_putCall_self c _ _)) ?_
  exact congrArg Host.Outcome.next (driven_begun (s.setCmdBuf (fillBuffer input)) _ [] c _ p d _)

end Mapped

/-- Settles O46: `commandVerdict_pair`, and a recovered error ends the call at once. -/
theorem rangeCheckAcceptsPins0To21AndBits : Obligations.RangeCheckAcceptsPins0To21AndBits := by
  intro text pin value hparse
  have verdict := commandVerdict_pair hparse
  refine ⟨fun hin => verdict.trans (if_pos (by omega)), fun hout => ?_⟩
  have violation : commandVerdict text = .recovered .rangeViolation := verdict.trans (if_neg (by omega))
  refine ⟨violation, fun s c input hm hc htext => ?_⟩
  rw [beginOp_idle hc]
  exact opCommandWrite_recovered hm hc (htext ▸ violation)

/-- Settles O48, by the verdict; the value of a command that drives is a bit. -/
theorem badCommandsMutateNoRegister : Obligations.BadCommandsMutateNoRegister := by
  intro s c input hm hc
  refine ⟨fun e rest hs hv => ?_, fun rest hs hv => ?_, fun pin desired hv => ?_⟩
  · exact (step_call_idle hs hc).trans (opCommandWrite_recovered (s := s.accept rest) hm hc hv)
  · exact (step_call_idle hs hc).trans (opCommandWrite_refuse (s := s.accept rest) hm hv)
  · obtain ⟨hpin, hdesired⟩ := commandVerdict_drive_bounds hv
    obtain ⟨d, rfl⟩ : ∃ d : Bool, desired = d.toNat := by
      obtain rfl | rfl := Nat.le_one_iff_eq_zero_or_eq_one.1 hdesired
      · exact ⟨false, rfl⟩
      · exact ⟨true, rfl⟩
    exact ⟨_, runSteps_commandWrite (p := ⟨pin, by omega⟩) hm hc hv, rfl⟩

/-- Settles O49: the run ends in `State.driven`, whose stored word has bits 31:30 zero already. -/
theorem goodCommandsDriveTheirPin : Obligations.GoodCommandsDriveTheirPin := by
  refine ⟨fun text pin desired => commandVerdict_drive_bounds, fun s c input p d i hi hm hc hreserved hv => ?_⟩
  obtain rfl : i = fselReg p := Fin.ext hi
  have hstored : configureOutput p s.fsel[fselReg p] &&& 0x3FFFFFFF#32 = configureOutput p s.fsel[fselReg p] :=
    and_reservedMask_eq_self ((configureOutput_reserved p _).trans (hreserved (fselReg p)))
  refine (runSteps_commandWrite hm hc hv).trans ?_
  rw [State.driven, State.levelDriven, setFsel_calls, setCmdBuf_calls, dropCall_idle hc, State.setFsel,
    setCmdBuf_fsel, hstored, BitVec.or_assoc]
  rfl

end Sys2Proof.Machine
end

section
/-! PROOFS. The state at reset (R260). -/

namespace Sys2Proof.Machine

/-- The mask of a function-select word leaves bits 29:0 as they are (R32). -/
theorem extractLsb'_low_reservedMask (d : Word) :
    (d &&& 0x3FFFFFFF#32).extractLsb' 0 30 = d.extractLsb' 0 30 := by
  refine BitVec.eq_of_getLsbD_eq fun k hk => ?_
  have hmask := reservedMask_getLsbD ⟨k, by omega⟩
  rw [decide_eq_true hk] at hmask
  simp only [BitVec.getLsbD_extractLsb', Nat.zero_add, BitVec.getLsbD_and, hmask, Bool.and_true]

theorem resetWith_fsel_getElem (params : Params) (resetFsel : Vector Word 4) (resetOut : Word) (n : Fin 4) :
    (State.resetWith params resetFsel resetOut).fsel[n] = resetFsel[n] &&& 0x3FFFFFFF#32 :=
  Vector.getElem_map ..

/-- Settles O52: reset masks bits 31:30 of each parameter word away, and with no input a step keeps the state. -/
theorem resetStateForAllOpenParameters : Obligations.ResetStateForAllOpenParameters := by
  refine fun params resetFsel resetOut => ⟨fun n => ?_, rfl, rfl, fun p => ?_, rfl, step_nil rfl⟩
  · rw [resetWith_fsel_getElem]
    exact ⟨extractLsb'_low_reservedMask _, extractLsb'_reservedMask _⟩
  · exact Vector.getElem_replicate p.isLt

end Sys2Proof.Machine
end

section
/-! PROOFS. What one caller sees of another's `drive_pin`: the level between its two halves (R272), and the latch and
`VIEW` after two calls on one pin (R280). -/

namespace Sys2Proof.Machine

/-- A second activity of a caller replaces the first, whatever the caller had in progress before. -/
@[simp] theorem putCall_putCall_self (c : Nat) (a b : Activity) (l : List (Nat × Activity)) :
    putCall c b (putCall c a l) = putCall c b l := by
  induction l with
  | nil => simp [putCall]
  | cons x t ih =>
    obtain ⟨k, e⟩ := x
    obtain hlt | rfl | hgt := Nat.lt_trichotomy c k
    · simp [putCall, hlt]
    · simp [putCall]
    · simp [putCall, Nat.lt_asymm hgt, Nat.ne_of_gt hgt, ih]

/-- What the first two transactions of a `drive_pin` leave: the pin an output, the level still to be written (R174). -/
def State.madeOutput (s : State) (c : Nat) (p : Fin 32) (d : Bool) (o : DriveOrigin) (l : List Input) : State :=
  ((s.accept l).setFsel (fselReg p) (configureOutput p s.fsel[fselReg p])).setCalls
    (putCall c (.driving p d o .readMask) s.calls)

theorem runSteps_madeOutput (n : Nat) {s : State} {c : Nat} {p : Fin 32} {d : Bool} {o : DriveOrigin} {l : List Input}
    (hs : s.inputs = .resume c :: .resume c :: l) (hm : s.life = .mapped)
    (hc : findCall c s.calls = some (.driving p d o .readFsel)) :
    runSteps (n + 2) s = runSteps n (s.madeOutput c p d o l) := by
  refine Eq.trans (runSteps_readFsel (n + 1) hs hc hm) ?_
  refine Eq.trans (runSteps_writeFsel n rfl (findCall_putCall_self c _ _) hm) ?_
  simp [State.madeOutput]

/-- Once the pin is an output its level is the latch bit, which nothing has written yet (R38, R272). -/
theorem levelWord_madeOutput (s : State) (c : Nat) (p : Fin 32) (d : Bool) (o : DriveOrigin) (l : List Input)
    (pad : Word) : (levelWord (s.madeOutput c p d o l) pad)[p] = s.out[p] := by
  have field : fselField (s.madeOutput c p d o l) (fieldPin p) = 0b001#3 :=
    (fselField_configured (s := s) rfl _).trans (if_pos rfl)
  rw [levelWord_getElem, if_pos field]
  rfl

/-- A caller that had nothing in progress calls `drive_pin` and performs its first two transactions (R173, R174). -/
theorem runSteps_drivePin_madeOutput (n : Nat) {s : State} {c : Nat} {p : Fin 32} {d : Bool} {l : List Input}
    (hc : Idle c s) (hm : s.life = .mapped) :
    runSteps (n + 3) (s.withInputs (.call c (.drivePin p d.toNat) :: .resume c :: .resume c :: l)) =
      runSteps n (s.madeOutput c p d .direct l) := by
  refine Eq.trans (runSteps_drivePin (n + 2) rfl hc hm) ?_
  refine Eq.trans (runSteps_madeOutput n rfl hm (findCall_putCall_self c _ _)) ?_
  simp [State.madeOutput]

/-- Settles O42: B reads the level of a pin that is an output already and whose latch bit A has not written yet. -/
theorem oldLatchBitIsDrivenBeforeTheLevelIsWritten : Obligations.OldLatchBitIsDrivenBeforeTheLevelIsWritten := by
  intro s a b p d hab hm ha hb
  have idleB : Idle b (s.madeOutput a p d .direct []) := (findCall_putCall_other hab.symm _ s.calls).trans hb
  refine ⟨_, (runSteps_drivePin_madeOutput 2 ha hm).trans
    (runSteps_readLevel (s := s.madeOutput a p d .direct []) idleB hm p), ?_, rfl⟩
  rw [setReturned_returned, levelWord_madeOutput]

/-- What the four transactions of a `drive_pin` leave, its end still to come (R173, R175, log entry 20). -/
def State.performed (s : State) (c : Nat) (p : Fin 32) (d : Bool) (o : DriveOrigin) (l : List Input) : State :=
  ((s.madeOutput c p d o l).setOut (latchAfter d s.out (s.params.woRead ||| pinBit p))).setCalls
    (putCall c (.driving p d o .finish) s.calls)

theorem runSteps_performed (n : Nat) {s : State} {c : Nat} {p : Fin 32} {d : Bool} {o : DriveOrigin} {l : List Input}
    (hs : s.inputs = List.replicate 4 (.resume c) ++ l) (hm : s.life = .mapped)
    (hc : findCall c s.calls = some (.driving p d o .readFsel)) :
    runSteps (n + 4) s = runSteps n (s.performed c p d o l) := by
  refine Eq.trans (runSteps_madeOutput (n + 2) hs hm hc) ?_
  refine Eq.trans (runSteps_readMask (n + 1) rfl (findCall_putCall_self c _ _) hm) ?_
  refine Eq.trans (runSteps_writeMask n rfl (findCall_putCall_self c _ _) hm) ?_
  simp [State.performed, State.madeOutput]

/-- A and B have called `drive_pin` on one pin and A has performed its first three transactions (R280). -/
theorem runSteps_samePin_begun (n : Nat) {s : State} {a b : Nat} {p : Fin 32} {l : List Input} (hab : a ≠ b)
    (hm : s.life = .mapped) (ha : Idle a s) (hb : Idle b s)
    (hs : s.inputs =
      [.call a (.drivePin p 1), .call b (.drivePin p 0), .resume a, .resume a, .resume a] ++ l) :
    ∃ m u, runSteps (n + 5) s = runSteps n u ∧ u.inputs = l ∧ u.life = .mapped ∧
      findCall a u.calls = some (.driving p true .direct (.writeMask m)) ∧
      findCall b u.calls = some (.driving p false .direct .readFsel) := by
  have idleB (x : Activity) : findCall b (putCall a x s.calls) = none :=
    (findCall_putCall_other hab.symm x _).trans hb
  have findA (x y : Activity) : findCall a (putCall b x (putCall a y s.calls)) = some y :=
    (findCall_putCall_other hab x _).trans (findCall_putCall_self a y _)
  refine ⟨s.params.woRead, ?_⟩
  apply Exists.intro
  constructor
  · refine Eq.trans (runSteps_drivePin (d := true) (n + 4) hs ha hm) ?_
    refine Eq.trans (runSteps_drivePin (d := false) (n + 3) rfl (idleB _) hm) ?_
    refine Eq.trans (runSteps_madeOutput (n + 1) rfl hm (findA _ _)) ?_
    exact runSteps_readMask n rfl (findCall_putCall_self a _ _) hm
  · refine ⟨rfl, hm, findCall_putCall_self a _ _, ?_⟩
    simp [State.madeOutput, findCall_putCall_other hab.symm, findCall_putCall_self]

/-- A, at its last transaction, performs it and ends; B, which has performed its own, ends after A (R280). -/
theorem runSteps_lastWriteThenEnds {s : State} {a b : Nat} {p : Fin 32} {d e : Bool} {o r : DriveOrigin} {m : Word}
    (hab : a ≠ b) (hs : s.inputs = [.resume a, .resume a, .resume b]) (hm : s.life = .mapped)
    (ha : findCall a s.calls = some (.driving p d o (.writeMask m)))
    (hb : findCall b s.calls = some (.driving p e r .finish)) :
    ∃ t, runSteps 3 s = .next t ∧ t.fsel = s.fsel ∧ t.out[p] = d ∧ t.view[p] = drivenView e := by
  have findB (x : Activity) : findCall b (dropCall a (putCall a x s.calls)) = some (.driving p e r .finish) := by
    rw [dropCall_putCall_self, findCall_dropCall_other hab.symm, hb]
  apply Exists.intro
  constructor
  · refine Eq.trans (runSteps_writeMask 2 hs ha hm) ?_
    refine Eq.trans (runSteps_finish 1 rfl (findCall_putCall_self a _ _)) ?_
    exact runSteps_finish 0 rfl (findB _)
  · refine ⟨rfl, (latchAfter_getElem d s.out (m ||| pinBit p) p).trans (if_pos ?_), by simp⟩
    rw [or_pinBit_getElem]
    simp

/-- Settles O41: A has read the mask before B begins and writes it after B's write, so the set write is the last one,
while B ends its call after A. -/
theorem viewCanDisagreeWithTheLatch : Obligations.ViewCanDisagreeWithTheLatch := by
  intro s a b p hab hm ha hb
  obtain ⟨m, u, hrun, hinputs, hmapped, hfindA, hfindB⟩ := runSteps_samePin_begun 7
    (s := s.withInputs (samePinInputs a b p)) hab hm ha hb rfl
  obtain ⟨t, hlast, hfsel, hout, hview⟩ := runSteps_lastWriteThenEnds
    (s := u.performed b p false .direct [.resume a, .resume a, .resume b]) hab rfl hmapped
    ((findCall_putCall_other hab _ u.calls).trans hfindA) (findCall_putCall_self b _ u.calls)
  refine ⟨t, hrun.trans ((runSteps_performed 3 hinputs hmapped hfindB).trans hlast), ?_, hout, hview⟩
  exact (fselField_configured (s := u) hfsel _).trans (if_pos rfl)

end Sys2Proof.Machine
end
